-- ==== Sys2Proof/Word.lean ====
section
/-! DEFINITION. The words of WMBDEC (00_scope.md rules R10, R11 and R12) and the small name types that its
commands and its host port are written with. -/

namespace Sys2Proof

/-- A byte: 8 bits, bit 0 the least significant, unsigned (R11). -/
abbrev Byte := BitVec 8

/-- A word of the 32-bit host port; the CMD word is one (R60, R90). -/
abbrev Word := BitVec 32

/-- Sixteen bytes, index 0 first: a key, an IV or an AES block (R10, R12). -/
abbrev Block := Vector Byte 16

/-- `zeros(16)` (R12): the zero IV of R16, and the reset value of KEY, KEY_IN and IV. -/
def zeroBlock : Block := Vector.replicate 16 0

/-- The IVSRC field of a DECRYPT command (R91): which IV the attempt uses. -/
inductive IvSrc where
  /-- IVSRC = 0: the IV register. -/
  | ivReg
  /-- IVSRC = 1: the zero IV. -/
  | zeroIv
  deriving DecidableEq, Repr

/-- How many bytes a host access moves: 1, 2 or 4, and no other number (R61). -/
inductive Width where
  | w8
  | w16
  | w32
  deriving DecidableEq, Repr

end Sys2Proof
end

