-- ==== Sys2Proof/Syntax.lean ====
section
/-! DEFINITION. The instruction set: the five commands of 30_encoding.md rule R90, one constructor for each row of
spec/opcode_table.json. Commands take no immediates (R95); DECRYPT alone has a field, IVSRC. -/

namespace Sys2Proof

/-- A command that the CMD word names (R90). -/
inductive Instr where
  /-- PARSE, CMD word 0x00000001 (R120). -/
  | parse
  /-- DERIVE_IV, CMD word 0x00000002 (R150). -/
  | deriveIv
  /-- DECRYPT, CMD words 0x00000003 and 0x00000103 (R170). -/
  | decrypt (ivsrc : IvSrc)
  /-- DECRYPT_TELEGRAM, CMD word 0x00000004 (R230). -/
  | decryptTelegram
  /-- LOAD_KEY, CMD word 0x00000005 (R260). -/
  | loadKey
  deriving DecidableEq, Repr

end Sys2Proof
end

