-- ==== Sys2Proof/WellFormed.lean ====
section
/-! DEFINITION. Which CMD words are well formed: the five rows of 30_encoding.md rule R93, as a list of match and
mask. The decoder does not use this list; it follows the algorithm of R92 (Decode.lean). -/

namespace Sys2Proof

/-- A row of R93: the words `w` with `w &&& mask = pattern` name one command. -/
structure CmdRow where
  pattern : Word
  mask : Word
  deriving DecidableEq, Repr

/-- The rows of R93, in the table's order: PARSE, DERIVE_IV, DECRYPT, DECRYPT_TELEGRAM, LOAD_KEY. -/
def cmdRows : List CmdRow := [
  ⟨0x00000001, 0xFFFFFFFF⟩,
  ⟨0x00000002, 0xFFFFFFFF⟩,
  ⟨0x00000003, 0xFFFFFEFF⟩,
  ⟨0x00000004, 0xFFFFFFFF⟩,
  ⟨0x00000005, 0xFFFFFFFF⟩]

/-- A word selects the command of a row when `(w & mask) = match` (R93). -/
def CmdRow.selects (row : CmdRow) (w : Word) : Bool := w &&& row.mask == row.pattern

/-- The CMD word names a command; every other word is illegal (R93, R94). -/
def cmdWellFormed (w : Word) : Bool := cmdRows.any (·.selects w)

/-- A command as syntax is always well formed: commands take no immediates (R95), and DECRYPT's one field has a type
with exactly its two values (R91), so there is no operand for a check to refuse. -/
def Instr.wellFormed : Instr → Bool
  | .parse => true
  | .deriveIv => true
  | .decrypt .ivReg => true
  | .decrypt .zeroIv => true
  | .decryptTelegram => true
  | .loadKey => true

end Sys2Proof
end

