-- ==== Sys2Proof/Decode.lean ====
section
/-! DEFINITION. Decoding and encoding of the CMD word (30_encoding.md rules R90 to R94). Decoding is total: a word
names a command or is rejected by the name of its request error. -/

namespace Sys2Proof

/-- What decoding a CMD word gives (R92). -/
inductive Decoded where
  /-- The word names this command. -/
  | instr (i : Instr)
  /-- OP is 0x0 or 0x6 to 0xF: RequestError(BAD_OPCODE). -/
  | badOpcode
  /-- OP names a command and a bit reserved for it is set: RequestError(RESERVED_BITS). -/
  | reservedBits
  deriving DecidableEq, Repr

/-- `CMD[3:0]` (R91). -/
def opOf (w : Word) : BitVec 4 := w.extractLsb' 0 4

/-- `CMD[8]` (R91). -/
def ivSrcOf (w : Word) : IvSrc := if w.getLsbD 8 then .zeroIv else .ivReg

/-- The command of an OP value and an IVSRC bit; none for the reserved OP values (R90). -/
def instrOf (op : BitVec 4) (ivsrc : IvSrc) : Option Instr :=
  match op.toNat with
  | 0x1 => some .parse
  | 0x2 => some .deriveIv
  | 0x3 => some (.decrypt ivsrc)
  | 0x4 => some .decryptTelegram
  | 0x5 => some .loadKey
  | _ => none

/-- The bits that are not reserved for an OP: OP itself, and IVSRC for DECRYPT (R91, R92). -/
def allowedBits (op : BitVec 4) : Word := if op = 0x3 then 0x0000010F else 0x0000000F

/-- `Decode(w)` of R92: the opcode test comes before the reserved-bit test. -/
def decode (w : Word) : Decoded :=
  match instrOf (opOf w) (ivSrcOf w) with
  | none => .badOpcode
  | some i => if w &&& ~~~(allowedBits (opOf w)) ≠ 0 then .reservedBits else .instr i

/-- The CMD word of a command (R93). -/
def encode : Instr → Word
  | .parse => 0x00000001
  | .deriveIv => 0x00000002
  | .decrypt .ivReg => 0x00000003
  | .decrypt .zeroIv => 0x00000103
  | .decryptTelegram => 0x00000004
  | .loadKey => 0x00000005

/-- Every command is one 32-bit CMD word (R91), which the host writes whole (R64): the instruction the decoder reads
from the word `w` of which the table gives the low `nbits` bits. -/
def decodeTableWord (nbits w : Nat) : Option Instr :=
  if w % 2 ^ nbits < 2 ^ 32 then
    match decode (BitVec.ofNat 32 (w % 2 ^ nbits)) with
    | .instr i => some i
    | .badOpcode => none
    | .reservedBits => none
  else none

/-! The words of R93 and of 95_test_vectors.md section 3.2, one or more for each constructor. -/

theorem decode_parse : decode 0x00000001 = .instr .parse := by decide
theorem decode_deriveIv : decode 0x00000002 = .instr .deriveIv := by decide
theorem decode_decrypt_ivReg : decode 0x00000003 = .instr (.decrypt .ivReg) := by decide
theorem decode_decrypt_zeroIv : decode 0x00000103 = .instr (.decrypt .zeroIv) := by decide
theorem decode_decryptTelegram : decode 0x00000004 = .instr .decryptTelegram := by decide
theorem decode_loadKey : decode 0x00000005 = .instr .loadKey := by decide

end Sys2Proof
end

