-- ==== Sys2Proof/Machine/Aes.lean ====
section
/-! DEFINITION. The AES-128 inverse cipher and CBC decryption of 43_decrypt.md section 2 (rules R180 to R190),
which the spec marks as supplied from general knowledge (log 7). A block is held in block order, so that the
state array's `s[r][c]` is byte `r + 4c` (R180). -/

namespace Sys2Proof.Machine.Aes

/-- `xtime` of R181: multiplication by x modulo 0x11B. -/
def xtime (a : Byte) : Byte :=
  if a.getLsbD 7 then (a <<< 1) ^^^ 0x1B else a <<< 1

/-- The last `n` of the eight rounds of `gmul` (R181): `a` has been doubled `8 - n` times and `p` is the sum so far. -/
def gmulFrom (b : Byte) : Nat → Byte → Byte → Byte
  | 0, _, p => p
  | n + 1, a, p => gmulFrom b n (xtime a) (if b.getLsbD (7 - n) then p ^^^ a else p)

/-- `gmul(a, b)` of R181. -/
def gmul (a b : Byte) : Byte := gmulFrom b 8 a 0

/-- `rotl8(b, k)` of R185. -/
def rotl8 (b : Byte) (k : Nat) : Byte := b.rotateLeft k

/-- Rows 0 to 7 of the table of R185. -/
def sboxRowsLow : List (List Byte) := [
  [0x63, 0x7c, 0x77, 0x7b, 0xf2, 0x6b, 0x6f, 0xc5, 0x30, 0x01, 0x67, 0x2b, 0xfe, 0xd7, 0xab, 0x76],
  [0xca, 0x82, 0xc9, 0x7d, 0xfa, 0x59, 0x47, 0xf0, 0xad, 0xd4, 0xa2, 0xaf, 0x9c, 0xa4, 0x72, 0xc0],
  [0xb7, 0xfd, 0x93, 0x26, 0x36, 0x3f, 0xf7, 0xcc, 0x34, 0xa5, 0xe5, 0xf1, 0x71, 0xd8, 0x31, 0x15],
  [0x04, 0xc7, 0x23, 0xc3, 0x18, 0x96, 0x05, 0x9a, 0x07, 0x12, 0x80, 0xe2, 0xeb, 0x27, 0xb2, 0x75],
  [0x09, 0x83, 0x2c, 0x1a, 0x1b, 0x6e, 0x5a, 0xa0, 0x52, 0x3b, 0xd6, 0xb3, 0x29, 0xe3, 0x2f, 0x84],
  [0x53, 0xd1, 0x00, 0xed, 0x20, 0xfc, 0xb1, 0x5b, 0x6a, 0xcb, 0xbe, 0x39, 0x4a, 0x4c, 0x58, 0xcf],
  [0xd0, 0xef, 0xaa, 0xfb, 0x43, 0x4d, 0x33, 0x85, 0x45, 0xf9, 0x02, 0x7f, 0x50, 0x3c, 0x9f, 0xa8],
  [0x51, 0xa3, 0x40, 0x8f, 0x92, 0x9d, 0x38, 0xf5, 0xbc, 0xb6, 0xda, 0x21, 0x10, 0xff, 0xf3, 0xd2]
]

/-- Rows 8 to F of the table of R185. -/
def sboxRowsHigh : List (List Byte) := [
  [0xcd, 0x0c, 0x13, 0xec, 0x5f, 0x97, 0x44, 0x17, 0xc4, 0xa7, 0x7e, 0x3d, 0x64, 0x5d, 0x19, 0x73],
  [0x60, 0x81, 0x4f, 0xdc, 0x22, 0x2a, 0x90, 0x88, 0x46, 0xee, 0xb8, 0x14, 0xde, 0x5e, 0x0b, 0xdb],
  [0xe0, 0x32, 0x3a, 0x0a, 0x49, 0x06, 0x24, 0x5c, 0xc2, 0xd3, 0xac, 0x62, 0x91, 0x95, 0xe4, 0x79],
  [0xe7, 0xc8, 0x37, 0x6d, 0x8d, 0xd5, 0x4e, 0xa9, 0x6c, 0x56, 0xf4, 0xea, 0x65, 0x7a, 0xae, 0x08],
  [0xba, 0x78, 0x25, 0x2e, 0x1c, 0xa6, 0xb4, 0xc6, 0xe8, 0xdd, 0x74, 0x1f, 0x4b, 0xbd, 0x8b, 0x8a],
  [0x70, 0x3e, 0xb5, 0x66, 0x48, 0x03, 0xf6, 0x0e, 0x61, 0x35, 0x57, 0xb9, 0x86, 0xc1, 0x1d, 0x9e],
  [0xe1, 0xf8, 0x98, 0x11, 0x69, 0xd9, 0x8e, 0x94, 0x9b, 0x1e, 0x87, 0xe9, 0xce, 0x55, 0x28, 0xdf],
  [0x8c, 0xa1, 0x89, 0x0d, 0xbf, 0xe6, 0x42, 0x68, 0x41, 0x99, 0x2d, 0x0f, 0xb0, 0x54, 0xbb, 0x16]
]

/-- Rows 0 to 7 of the table of R186. -/
def invSboxRowsLow : List (List Byte) := [
  [0x52, 0x09, 0x6a, 0xd5, 0x30, 0x36, 0xa5, 0x38, 0xbf, 0x40, 0xa3, 0x9e, 0x81, 0xf3, 0xd7, 0xfb],
  [0x7c, 0xe3, 0x39, 0x82, 0x9b, 0x2f, 0xff, 0x87, 0x34, 0x8e, 0x43, 0x44, 0xc4, 0xde, 0xe9, 0xcb],
  [0x54, 0x7b, 0x94, 0x32, 0xa6, 0xc2, 0x23, 0x3d, 0xee, 0x4c, 0x95, 0x0b, 0x42, 0xfa, 0xc3, 0x4e],
  [0x08, 0x2e, 0xa1, 0x66, 0x28, 0xd9, 0x24, 0xb2, 0x76, 0x5b, 0xa2, 0x49, 0x6d, 0x8b, 0xd1, 0x25],
  [0x72, 0xf8, 0xf6, 0x64, 0x86, 0x68, 0x98, 0x16, 0xd4, 0xa4, 0x5c, 0xcc, 0x5d, 0x65, 0xb6, 0x92],
  [0x6c, 0x70, 0x48, 0x50, 0xfd, 0xed, 0xb9, 0xda, 0x5e, 0x15, 0x46, 0x57, 0xa7, 0x8d, 0x9d, 0x84],
  [0x90, 0xd8, 0xab, 0x00, 0x8c, 0xbc, 0xd3, 0x0a, 0xf7, 0xe4, 0x58, 0x05, 0xb8, 0xb3, 0x45, 0x06],
  [0xd0, 0x2c, 0x1e, 0x8f, 0xca, 0x3f, 0x0f, 0x02, 0xc1, 0xaf, 0xbd, 0x03, 0x01, 0x13, 0x8a, 0x6b]
]

/-- Rows 8 to F of the table of R186. -/
def invSboxRowsHigh : List (List Byte) := [
  [0x3a, 0x91, 0x11, 0x41, 0x4f, 0x67, 0xdc, 0xea, 0x97, 0xf2, 0xcf, 0xce, 0xf0, 0xb4, 0xe6, 0x73],
  [0x96, 0xac, 0x74, 0x22, 0xe7, 0xad, 0x35, 0x85, 0xe2, 0xf9, 0x37, 0xe8, 0x1c, 0x75, 0xdf, 0x6e],
  [0x47, 0xf1, 0x1a, 0x71, 0x1d, 0x29, 0xc5, 0x89, 0x6f, 0xb7, 0x62, 0x0e, 0xaa, 0x18, 0xbe, 0x1b],
  [0xfc, 0x56, 0x3e, 0x4b, 0xc6, 0xd2, 0x79, 0x20, 0x9a, 0xdb, 0xc0, 0xfe, 0x78, 0xcd, 0x5a, 0xf4],
  [0x1f, 0xdd, 0xa8, 0x33, 0x88, 0x07, 0xc7, 0x31, 0xb1, 0x12, 0x10, 0x59, 0x27, 0x80, 0xec, 0x5f],
  [0x60, 0x51, 0x7f, 0xa9, 0x19, 0xb5, 0x4a, 0x0d, 0x2d, 0xe5, 0x7a, 0x9f, 0x93, 0xc9, 0x9c, 0xef],
  [0xa0, 0xe0, 0x3b, 0x4d, 0xae, 0x2a, 0xf5, 0xb0, 0xc8, 0xeb, 0xbb, 0x3c, 0x83, 0x53, 0x99, 0x61],
  [0x17, 0x2b, 0x04, 0x7e, 0xba, 0x77, 0xd6, 0x26, 0xe1, 0x69, 0x14, 0x63, 0x55, 0x21, 0x0c, 0x7d]
]

/-- A table of 16 rows read at a byte: row its high nibble, column its low nibble (R185, R186). -/
def tableAt (rows : List (List Byte)) (a : Byte) : Byte :=
  (rows.getD (a.toNat / 16) []).getD (a.toNat % 16) 0

/-- `SBOX[a]` (R185). -/
def sbox (a : Byte) : Byte := tableAt (sboxRowsLow ++ sboxRowsHigh) a

/-- `INV_SBOX[a]` (R186). -/
def invSbox (a : Byte) : Byte := tableAt (invSboxRowsLow ++ invSboxRowsHigh) a

/-- A key word `w[i]`: four bytes (R180). -/
abbrev KeyWord := Vector Byte 4

/-- `RotWord` of R183: (a0, a1, a2, a3) becomes (a1, a2, a3, a0). -/
def rotWord (t : KeyWord) : KeyWord := #v[t[1], t[2], t[3], t[0]]

/-- `SubWord` of R183: SBOX on each byte. -/
def subWord (t : KeyWord) : KeyWord := t.map sbox

/-- `Rcon[j]` of R184, for j = 1 to 10. -/
def rcon (j : Nat) : Byte :=
  ([0x01, 0x02, 0x04, 0x08, 0x10, 0x20, 0x40, 0x80, 0x1B, 0x36] : List Byte).getD (j - 1) 0

/-- Bytewise exclusive-or of two key words. -/
def xorWord (a b : KeyWord) : KeyWord := Vector.zipWith (· ^^^ ·) a b

/-- The value `t` that R183 adds to `w[i-4]`, from `w[i-1]`. -/
def scheduleStep (i : Nat) (prev : KeyWord) : KeyWord :=
  if i % 4 = 0 then
    let t := subWord (rotWord prev)
    #v[t[0] ^^^ rcon (i / 4), t[1], t[2], t[3]]
  else prev

/-- The key schedule continued by `n` words; `ws` holds the words so far, newest first, `i` of them (R183). -/
def expandFrom : (n i : Nat) → (ws : List KeyWord) → List KeyWord
  | 0, _, ws => ws
  | n + 1, i, ws =>
    let zero := Vector.replicate 4 0
    expandFrom n (i + 1) (xorWord (ws.getD 3 zero) (scheduleStep i (ws.getD 0 zero)) :: ws)

/-- `KeyExpansion(key)` (R183): `w[0..44)`, oldest first. -/
def keyExpansion (key : Block) : List KeyWord :=
  (expandFrom 40 4 [
    #v[key[12], key[13], key[14], key[15]], #v[key[8], key[9], key[10], key[11]],
    #v[key[4], key[5], key[6], key[7]], #v[key[0], key[1], key[2], key[3]]]).reverse

/-- Round key `round` as 16 bytes in block order (R187). -/
def roundKey (w : List KeyWord) (round : Nat) : Block :=
  Vector.ofFn fun k : Fin 16 => (w.getD (4 * round + k.val / 4) (Vector.replicate 4 0)).toList.getD (k.val % 4) 0

/-- Bytewise exclusive-or of two blocks (R187, R190). -/
def xorBlock (a b : Block) : Block := Vector.zipWith (· ^^^ ·) a b

/-- `AddRoundKey(s, w, round)` (R187). -/
def addRoundKey (s : Block) (w : List KeyWord) (round : Nat) : Block := xorBlock s (roundKey w round)

/-- `InvShiftRows(s)` (R188): `s'[r][c] = s[r][(c - r) mod 4]`. -/
def invShiftRows (s : Block) : Block :=
  Vector.ofFn fun k : Fin 16 => s[k.val % 4 + 4 * ((k.val / 4 + 4 - k.val % 4) % 4)]

/-- `InvSubBytes(s)` (R186). -/
def invSubBytes (s : Block) : Block := s.map invSbox

/-- Row `r` of a column mixed by `InvMixColumns` (R189): the column's bytes are `a0` to `a3` counted from row `r`. -/
def invMixByte (a0 a1 a2 a3 : Byte) : Byte :=
  gmul a0 0x0E ^^^ gmul a1 0x0B ^^^ gmul a2 0x0D ^^^ gmul a3 0x09

/-- `InvMixColumns(s)` (R189). -/
def invMixColumns (s : Block) : Block :=
  Vector.ofFn fun k : Fin 16 =>
    invMixByte s[4 * (k.val / 4) + k.val % 4] s[4 * (k.val / 4) + (k.val + 1) % 4]
      s[4 * (k.val / 4) + (k.val + 2) % 4] s[4 * (k.val / 4) + (k.val + 3) % 4]

/-- The rounds `round` down to 1 of R182. -/
def invRounds (w : List KeyWord) : (round : Nat) → Block → Block
  | 0, s => s
  | round + 1, s =>
    invRounds w round (invMixColumns (addRoundKey (invSubBytes (invShiftRows s)) w (round + 1)))

/-- `AES128_InvCipher(in, key)` (R182). -/
def invCipher (block key : Block) : Block :=
  let w := keyExpansion key
  addRoundKey (invSubBytes (invShiftRows (invRounds w 9 (addRoundKey block w 10)))) w 0

/-- The block that the first 16 bytes of a byte sequence are. -/
def blockOf (bytes : List Byte) : Block := Vector.ofFn fun k : Fin 16 => bytes.getD k.val 0

/-- The blocks `m` still to be decrypted of R190, `prev` being the ciphertext block before them. -/
def cbcBlocks (key : Block) : (m : Nat) → (prev : Block) → (ct : List Byte) → List Byte
  | 0, _, _ => []
  | m + 1, prev, ct =>
    (xorBlock (invCipher (blockOf ct) key) prev).toList ++ cbcBlocks key m (blockOf ct) (ct.drop 16)

/-- `CBC_Decrypt(ct, key, iv)` (R190). -/
def cbcDecrypt (ct : List Byte) (key iv : Block) : List Byte := cbcBlocks key (ct.length / 16) iv ct

end Sys2Proof.Machine.Aes
end

