-- ==== Sys2Proof/Config.lean ====
section
/-! DEFINITION. What the spec leaves to the implementation or to a free draw. A free value is an `opaque`
constant with no body: nothing can evaluate it and no proof can know a value of it (log entries 1 to 6). -/

namespace Sys2Proof

/-- The values of the free input ENGINE_FAULT (R8). -/
inductive EngineFault where
  /-- The engine did not fail. -/
  | none
  /-- Context or initialization failure. -/
  | init
  /-- Update-stage failure. -/
  | update
  /-- Finalization failure. -/
  | final
  deriving DecidableEq, Repr, Inhabited

namespace Config

/-- FREE VALUE: the ENGINE_FAULT draw of the `n`-th decryption attempt of acceptable length (R8, R174; log 1). -/
opaque engineFault : Nat → EngineFault

/-- FREE VALUE: how many cycles after the one of its issue a command waits before its completion is taken;
finite, which is the weak fairness of R329, and otherwise unspecified (R9, R337; log 2). -/
opaque latency : Nat → Nat

/-- FREE VALUE: the byte that draw `n` leaves at window offset `o` of TEL_BUF or PT_BUF, where the spec says
the byte is unspecified (R175, R176, R323; log 3). -/
opaque freeByte (n o : Nat) : Byte

/-- FREE VALUE: the unspecified bits of the read made at draw `n` (R332, R320; log 4). -/
opaque freeWord : Nat → Word

/-- FREE VALUE: whether the port answers an access made while reset is asserted with a bus error (R320; log 5). -/
opaque freeFlag : Nat → Bool

/-- The least TEL_MAX the spec allows (R7). -/
def telMaxLeast : Nat := 10

/-- The greatest TEL_MAX the spec allows (R7). -/
def telMaxGreatest : Nat := 1024

/-- The TEL_MAX of an implementation that has no other constraint (R7); the machine's `State.reset` uses it, and every
other allowed value is reached by `State.resetWith` (log 6). -/
def telMaxDefault : BitVec 16 := 256

end Config

end Sys2Proof
end

