-- ==== Sys2Proof/Machine/State.lean ====
section
/-! DEFINITION. The state of WMBDEC (10_state.md rule R20 and its record), the state after reset (R320), and the
model's own fields: what the host will do, what the port answered, and the counters of the free draws (log 8). -/

namespace Sys2Proof.Machine

/-- What the outside does to the block, one item a cycle: the accesses of a host program (R97, R98) and the reset
input (R320). -/
inductive HostEvent where
  /-- `MemRead(a, n)` at window offset `a` (R66). -/
  | read (a : BitVec 12) (n : Width)
  /-- `MemWrite(a, n, v)`; the port carries the low `n` bytes of `v` (R67). -/
  | write (a : BitVec 12) (n : Width) (v : Word)
  /-- The pseudo-instruction `wait`: read STATUS, and again while it shows BUSY = 1 (R98). -/
  | wait
  /-- The reset input is asserted. -/
  | assertReset
  /-- The reset input is released. -/
  | releaseReset
  deriving DecidableEq, Repr

/-- The port's answer to an access: its error response, and its data (0 for a write and for a bus error) (R66, R67). -/
structure Response where
  busError : Bool
  data : Word
  deriving DecidableEq, Repr

/-- The memory of a byte buffer: pairs of an address, which is an index of the buffer, and the byte that was stored
there, in strictly rising order of address. An address that is not listed holds no stored byte: it holds a byte the
spec leaves unspecified, which is read as a free value (R175, R176, R323; `telByte` and `ptByte`, log 3). -/
abbrev Memory := List Host.Cell

/-- The architectural state of WMBDEC, then the model's own fields. MCODE, SERIAL, VERSION and DEVTYPE are views
(R20); the CMD register holds nothing (R22). -/
structure State where
  /-- STATUS.BUSY (R24). -/
  busy : Bool
  /-- The CMD word of the command in flight (R50). -/
  pending : Option Word
  /-- STATUS.KEY_VALID (R25). -/
  keyValid : Bool
  /-- STATUS.PARSED (R26). -/
  parsed : Bool
  /-- STATUS.PT_VALID (R27). -/
  ptValid : Bool
  /-- STATUS.HAZ, sticky (R28). -/
  haz : Bool
  /-- STATUS.BUSERR, sticky (R29). -/
  busErr : Bool
  /-- STATUS.ERR (R30). -/
  err : BitVec 4
  /-- STATUS.DETAIL (R31). -/
  detail : BitVec 4
  /-- STATUS.CAUSE_A (R32). -/
  causeA : BitVec 3
  /-- STATUS.CAUSE_B (R32). -/
  causeB : BitVec 3
  /-- STATUS.OUTCOME (R33). -/
  outcome : BitVec 2
  /-- TEL_LEN (R34). -/
  telLen : BitVec 16
  /-- KEY_LEN (R35). -/
  keyLen : BitVec 8
  /-- CT_OFF (R36). -/
  ctOff : BitVec 16
  /-- CT_LEN (R37). -/
  ctLen : BitVec 16
  /-- PT_LEN (R39). -/
  ptLen : BitVec 16
  /-- LFIELD (R40). -/
  lField : Byte
  /-- CFIELD (R40). -/
  cField : Byte
  /-- CIFIELD (R40). -/
  ciField : Byte
  /-- MFIELD[0..6) (R41). -/
  mField : Vector Byte 6
  /-- IV[0..16) (R45). -/
  iv : Block
  /-- KEY[0..16) (R46). -/
  key : Block
  /-- KEY_IN[0..16) (R47). -/
  keyIn : Block
  /-- TEL_BUF (R48). -/
  telBuf : Memory
  /-- PT_BUF (R49): the bytes that the last plaintext stored. PARSE leaves them (R127, R129), and while PT_VALID = 0 none of
  them is read (`ptByte`). -/
  ptBuf : Memory
  /-- PARAM.TEL_MAX, hardwired: the implementation parameter TEL_MAX (R7, R38; log 6). -/
  telMax : BitVec 16
  /-- MODEL'S OWN: the reset input is asserted (R320; log 9). -/
  inReset : Bool
  /-- MODEL'S OWN: what the host still has to do, in its program order (R73; log 8). -/
  host : List HostEvent
  /-- MODEL'S OWN: what the port has answered so far, oldest first (R338; log 8). -/
  responses : List Response
  /-- MODEL'S OWN: the cycles left before the completion of the command in flight is taken (R9, R329; log 2). -/
  lag : Nat
  /-- MODEL'S OWN: how many ENGINE_FAULT draws have been made (R8; log 1). -/
  faultDraws : Nat
  /-- MODEL'S OWN: how many other free draws have been made (log 2 to 5). -/
  freeDraws : Nat
  /-- MODEL'S OWN: the draw that gives the unlisted bytes of TEL_BUF (R323; log 3). -/
  telDraw : Nat
  /-- MODEL'S OWN: the draw that gives the unlisted bytes of PT_BUF (R193; log 3). -/
  ptDraw : Nat
  deriving DecidableEq, Repr

/-- Why the machine may stop with a fault. The spec stops it nowhere (R280; 93_implementation_defined.md, "every
command completes"), so the one fault is for states that no run reaches. -/
inductive Fault where
  /-- Raised by `step` where BUSY = 1 and no command is pending, which R24 and R50 rule out. Safe: `State.Inv`
  (Safety.lean) excludes it and every step keeps `State.Inv`. -/
  | busyWithoutCommand
  deriving DecidableEq, Repr

/-- Why a step may have no meaning. -/
inductive Refusal where
  /-- Raised only by an arm of `exec` whose instruction has no meaning yet; no arm does. Safe: a refused step proves
  nothing. -/
  | notModelled (mnemonic : String)
  deriving DecidableEq, Repr

/-- The state right after reset of an implementation with this TEL_MAX (R20, R320): every register at the value listed
in R20, TEL_BUF and PT_BUF unspecified (draw 0), the reset input released, and no host program. -/
def State.resetWith (telMax : BitVec 16) : State where
  busy := false
  pending := none
  keyValid := false
  parsed := false
  ptValid := false
  haz := false
  busErr := false
  err := 0
  detail := 0
  causeA := 0
  causeB := 0
  outcome := 0
  telLen := 0
  keyLen := 0
  ctOff := 0
  ctLen := 0
  ptLen := 0
  lField := 0
  cField := 0
  ciField := 0
  mField := Vector.replicate 6 0
  iv := zeroBlock
  key := zeroBlock
  keyIn := zeroBlock
  telBuf := []
  ptBuf := []
  telMax := telMax
  inReset := false
  host := []
  responses := []
  lag := 0
  faultDraws := 0
  freeDraws := 1
  telDraw := 0
  ptDraw := 0

/-- The machine right after reset, with the TEL_MAX of an implementation that has no other constraint (R7). -/
def State.reset : State := State.resetWith Config.telMaxDefault

end Sys2Proof.Machine
end

