-- ==== Sys2Proof/Machine/Flags.lean ====
section
/-! DEFINITION. The fields of STATUS: their codes (60_exceptions.md rules R282 to R284, 10_state.md rule R33) and the
STATUS word (10_state.md rule R23). WMBDEC has no condition flags (R21); these are its only status indications. -/

namespace Sys2Proof.Machine

/-- The error kinds of R282. -/
inductive ErrKind where
  | none
  | malformedTelegram
  /-- Reserved for the host's hex codec, which is outside the block (R5); never written. -/
  | invalidEncoding
  | invalidKeyLength
  | decryptionFailed
  | requestError
  deriving DecidableEq, Repr

/-- The ERR codes (R282). -/
def ErrKind.code : ErrKind → BitVec 4
  | .none => 0
  | .malformedTelegram => 1
  | .invalidEncoding => 2
  | .invalidKeyLength => 3
  | .decryptionFailed => 4
  | .requestError => 5

/-- The details of a request error (R283). -/
inductive Detail where
  | none
  | badOpcode
  | reservedBits
  | noKey
  | keyLocked
  | notParsed
  | range
  deriving DecidableEq, Repr

/-- The DETAIL codes (R283). -/
def Detail.code : Detail → BitVec 4
  | .none => 0
  | .badOpcode => 1
  | .reservedBits => 2
  | .noKey => 3
  | .keyLocked => 4
  | .notParsed => 5
  | .range => 6

/-- Why a decryption attempt failed (R284). -/
inductive Cause where
  /-- No attempt was made, or it succeeded. -/
  | none
  | length
  | init
  | update
  | final
  deriving DecidableEq, Repr

/-- The codes of CAUSE_A and CAUSE_B (R284). -/
def Cause.code : Cause → BitVec 3
  | .none => 0
  | .length => 1
  | .init => 2
  | .update => 3
  | .final => 4

/-- The cause that a draw of ENGINE_FAULT gives an attempt (R174, R284). -/
def causeOfFault : EngineFault → Cause
  | .none => .none
  | .init => .init
  | .update => .update
  | .final => .final

/-- The result of the last decryption of the current record (R33). -/
inductive OutcomeKind where
  | none
  | okIvReg
  | okZero
  | failed
  deriving DecidableEq, Repr

/-- The OUTCOME codes (R33). -/
def OutcomeKind.code : OutcomeKind → BitVec 2
  | .none => 0
  | .okIvReg => 1
  | .okZero => 2
  | .failed => 3

/-- A value placed in a word at bit `lo`. -/
def field {n : Nat} (lo : Nat) (v : BitVec n) : Word := v.setWidth 32 <<< lo

/-- A one-bit field. -/
def flag (lo : Nat) (b : Bool) : Word := field lo (BitVec.ofBool b)

/-- The STATUS word (R23): the bits that no field has are 0. -/
def statusWord (s : State) : Word :=
  flag 0 s.busy ||| flag 1 s.keyValid ||| flag 2 s.parsed ||| flag 3 s.ptValid ||| flag 4 s.haz ||| flag 5 s.busErr |||
    field 8 s.err ||| field 12 s.detail ||| field 16 s.causeA ||| field 20 s.causeB ||| field 24 s.outcome

end Sys2Proof.Machine
end

