-- ==== Sys2Proof/Machine/Ops.lean ====
section
/-! DEFINITION. The named operations over the byte buffers, and how a command ends: normally, with one of the source's
error kinds, or with a request error (60_exceptions.md rules R280, R287 and R288). WMBDEC has no trap entry and no trap
return (R293): an error is a code that the completion writes into STATUS, so ending a command is the one operation
that stands where other hardware takes an exception. -/

namespace Sys2Proof.Machine

/-! The byte buffers. -/

/-- The byte stored at an address, none where nothing is stored. -/
def Memory.read : Memory → Nat → Option Byte
  | [], _ => none
  | (a, b) :: m, i => if a = i then some b else Memory.read m i

/-- Storing a byte keeps the addresses strictly rising. -/
def Memory.write : Memory → Nat → Byte → Memory
  | [], i, b => [(i, b)]
  | (a, c) :: m, i, b =>
    if i < a then (i, b) :: (a, c) :: m else if i = a then (i, b) :: m else (a, c) :: Memory.write m i b

/-- The memory that holds a byte sequence from address `i` on and nothing else. -/
def Memory.ofBytes : (i : Nat) → List Byte → Memory
  | _, [] => []
  | i, b :: bs => (i, b) :: Memory.ofBytes (i + 1) bs

/-- The canonical form: addresses strictly rising. (An unlisted address holds no stored byte, so no entry can equal it.) -/
abbrev Memory.wf (m : Memory) : Prop := List.Pairwise (fun c d => c.1 < d.1) m

/-- Every address is below `n`. -/
abbrev Memory.within (m : Memory) (n : Nat) : Prop := ∀ c ∈ m, c.1 < n

/-- `TEL_BUF[i]`; a byte that the host has not written since reset is the byte drawn at reset (R323). -/
def telByte (s : State) (i : Nat) : Byte := (s.telBuf.read i).getD (Config.freeByte s.telDraw (0x400 + i))

/-- The byte of PT_BUF that is unspecified at index `i` (R49, R193). -/
def ptUnspecified (s : State) (i : Nat) : Byte := Config.freeByte s.ptDraw (0x800 + i)

/-- `PT_BUF[i]`: the stored byte while PT_VALID = 1 and `i` is below PT_LEN; every other byte is unspecified, whatever an
earlier command stored there (R49, R193, 92_eei_decisions.md D18; log 3). -/
def ptByte (s : State) (i : Nat) : Byte :=
  if s.ptValid ∧ i < s.ptLen.toNat then (s.ptBuf.read i).getD (ptUnspecified s i) else ptUnspecified s i

/-- `TEL_BUF[off .. off + len)` (R12). -/
def telSlice (s : State) (off len : Nat) : List Byte := (List.range len).map fun k => telByte s (off + k)

/-! The end of a command. -/

/-- Every completion writes ERR and DETAIL (R30, R31), drops the pending command and clears BUSY (R329). -/
def finish (e : ErrKind) (d : Detail) (s : State) : State :=
  { s with err := e.code, detail := d.code, pending := none, busy := false }

/-- A command ends without a hard error: `ERR <- NONE; DETAIL <- 0`. -/
def endOk (s : State) : State := finish .none .none s

/-- `raise MalformedTelegram`, `raise InvalidKeyLength` and `raise DecryptionFailed(c)`: ERR gets the kind's code and
DETAIL gets 0; what the command wrote before the raise is kept (R287). -/
def raiseError (e : ErrKind) (s : State) : State := finish e .none s

/-- `raise RequestError(d)`: nothing changes but ERR and DETAIL, and BUSY at completion (R288). -/
def raiseRequest (d : Detail) (s : State) : State := finish .requestError d s

/-! The free draws (R8, R51). -/

/-- The ENGINE_FAULT draw of the next attempt of acceptable length (R8). -/
def nextFault (s : State) : EngineFault := Config.engineFault s.faultDraws

/-- An ENGINE_FAULT draw is used up. -/
def useFault (s : State) : State := { s with faultDraws := s.faultDraws + 1 }

/-- One of the other free draws is used up. -/
def useDraw (s : State) : State := { s with freeDraws := s.freeDraws + 1 }

end Sys2Proof.Machine
end

