-- ==== Sys2Proof/Machine/Operands.lean ====
section
/-! DEFINITION. The operands of the commands and the values of the registers: byte order, the record's views and the
register words of 10_state.md. Every operand is an implicit register or buffer (30_encoding.md rule R95). -/

namespace Sys2Proof.Machine

/-- `le16(b0, b1)` (R13). -/
def le16 (b0 b1 : Byte) : BitVec 16 := b0.setWidth 16 ||| (b1.setWidth 16 <<< 8)

/-- `le32(b0, b1, b2, b3)` (R13). -/
def le32 (b0 b1 b2 b3 : Byte) : Word :=
  b0.setWidth 32 ||| (b1.setWidth 32 <<< 8) ||| (b2.setWidth 32 <<< 16) ||| (b3.setWidth 32 <<< 24)

/-- Byte `k` of a value: its bits `8k+7 : 8k`, 0 above its width (R63). -/
def byteOf {n : Nat} (v : BitVec n) (k : Nat) : Byte := v.extractLsb' (8 * k) 8

/-- The word whose byte `k` is the `k`-th byte of the list (R63, R66). -/
def leBytes : List Byte → Word
  | [] => 0
  | b :: bs => b.setWidth 32 ||| (leBytes bs <<< 8)

/-- A value with its byte `k` replaced; a byte that lies above its width is ignored (R67, R68). -/
def withByte {n : Nat} (v : BitVec n) (k : Nat) (b : Byte) : BitVec n :=
  (v &&& ~~~((0xFF#8).setWidth n <<< (8 * k))) ||| (b.setWidth n <<< (8 * k))

/-- MCODE, a view of MFIELD without storage (R42). -/
def mcode (s : State) : BitVec 16 := le16 s.mField[0] s.mField[1]

/-- SERIAL, a view of MFIELD without storage (R43). -/
def serial (s : State) : Word := le32 s.mField[2] s.mField[3] s.mField[4] s.mField[5]

/-- VERSION, hardwired to 0 (R44, R126). -/
def version : Byte := 0

/-- DEVTYPE, hardwired to 0 (R44, R126). -/
def devType : Byte := 0

/-- `VERDEV_PRESENT` of R151: false in WMBDEC (R126). -/
def verDevPresent : Bool := false

/-- The HDR word (R40). -/
def hdrWord (s : State) : Word := field 0 s.lField ||| field 8 s.cField ||| field 16 s.ciField

/-- The MFIELD_LO word (R41). -/
def mfieldLoWord (s : State) : Word := le32 s.mField[0] s.mField[1] s.mField[2] s.mField[3]

/-- The MFIELD_HI word (R41). -/
def mfieldHiWord (s : State) : Word := (le16 s.mField[4] s.mField[5]).setWidth 32

/-- The VERDEV word (R44). -/
def verDevWord : Word := field 0 version ||| field 8 devType

/-- The IV that a DECRYPT uses (R170). -/
def ivOperand (src : IvSrc) (s : State) : Block :=
  match src with
  | .ivReg => s.iv
  | .zeroIv => zeroBlock

/-- The ciphertext slice `TEL_BUF[CT_OFF .. CT_OFF + CT_LEN)` (R37, R170). -/
def ciphertext (s : State) : List Byte := telSlice s s.ctOff.toNat s.ctLen.toNat

/-- TEL_LEN > TEL_MAX (R34). -/
def telTooLong (s : State) : Bool := s.telMax.toNat < s.telLen.toNat

/-- The length is below the 10 bytes a telegram has at least (R10, R121). -/
def telTooShort (s : State) : Bool := s.telLen.toNat < 10

/-- `CT_OFF + CT_LEN > TEL_LEN`, the sum taken without wrapping (R171). -/
def sliceTooLong (s : State) : Bool :=
  (s.telLen.setWidth 17).ult (s.ctOff.setWidth 17 + s.ctLen.setWidth 17)

end Sys2Proof.Machine
end

