-- ==== Sys2Proof/Machine/Decryptor.lean ====
section
/-! DEFINITION. DECRYPT and the decryption attempt (43_decrypt.md rules R170 to R179 and R191). -/

namespace Sys2Proof.Machine

/-- How a decryption attempt ends (R172). -/
inductive AttemptResult where
  | ok (pt : List Byte)
  | fail (c : Cause)
  deriving DecidableEq, Repr

/-- The length an attempt accepts: a positive multiple of 16 (R173). -/
def attemptLengthOk (n : Nat) : Bool := n ≠ 0 ∧ n % 16 = 0

/-- Attempt (R172), the length test before the ENGINE_FAULT draw (R173): its result, which is a function of the
ciphertext, KEY, the IV and the draw alone (R191). -/
def attempt (ct : List Byte) (iv : Block) (s : State) : AttemptResult :=
  if attemptLengthOk ct.length then
    match nextFault s with
    | .none => .ok (Aes.cbcDecrypt ct s.key iv)
    | .init => .fail (causeOfFault .init)
    | .update => .fail (causeOfFault .update)
    | .final => .fail (causeOfFault .final)
  else .fail .length

/-- The state after an attempt: it writes nothing (R172), and an attempt of acceptable length has used an ENGINE_FAULT
draw (R173, R174). -/
def afterAttempt (ct : List Byte) (s : State) : State := if attemptLengthOk ct.length then useFault s else s

/-- CommitPlaintext (R175): the plaintext is stored as it is, and every byte of PT_BUF above it is unspecified. -/
def commitPlaintext (pt : List Byte) (s : State) : State :=
  useDraw { s with
    ptBuf := Memory.ofBytes 0 pt
    ptDraw := s.freeDraws
    ptLen := BitVec.ofNat 16 pt.length
    ptValid := true }

/-- DiscardPlaintext (R176): every byte of PT_BUF is unspecified. -/
def discardPlaintext (s : State) : State :=
  useDraw { s with
    ptBuf := []
    ptDraw := s.freeDraws
    ptLen := 0
    ptValid := false }

/-- The result fields of a decryption (R32, R33). -/
def setOutcome (o : OutcomeKind) (a b : Cause) (s : State) : State :=
  { s with outcome := o.code, causeA := a.code, causeB := b.code }

/-- OUTCOME of a successful DECRYPT (R170). -/
def successOutcome : IvSrc → OutcomeKind
  | .ivReg => .okIvReg
  | .zeroIv => .okZero

/-- The completion of DECRYPT once its request checks have passed (R170). -/
def decryptSlice (src : IvSrc) (s : State) : State :=
  match attempt (ciphertext s) (ivOperand src s) s with
  | .ok pt => endOk (setOutcome (successOutcome src) .none .none (commitPlaintext pt (afterAttempt (ciphertext s) s)))
  | .fail c =>
    raiseError .decryptionFailed (setOutcome .failed c .none (discardPlaintext (afterAttempt (ciphertext s) s)))

/-- The completion of DECRYPT (R170), its checks in the order of R171. -/
def decrypt (src : IvSrc) (s : State) : State :=
  if !s.keyValid then raiseRequest .noKey s
  else if telTooLong s || sliceTooLong s then raiseRequest .range s
  else decryptSlice src s

/-- DECRYPT (R170). -/
def execDecrypt (ivsrc : IvSrc) (s : State) : Host.Outcome State Fault Refusal := .next (decrypt ivsrc s)

end Sys2Proof.Machine
end

