-- ==== Sys2Proof/Machine/IvDerivation.lean ====
section
/-! DEFINITION. DERIVE_IV (42_derive_iv.md rules R150 to R157). -/

namespace Sys2Proof.Machine

/-- DeriveIV (R151): the six bytes of MFIELD, then VERSION and DEVTYPE where they are present, then zeros. -/
def derivedIv (s : State) : Block :=
  Vector.ofFn fun k : Fin 16 =>
    if h : k.val < 6 then s.mField[k.val]
    else if verDevPresent ∧ k.val = 6 then version
    else if verDevPresent ∧ k.val = 7 then devType
    else 0

/-- The derived IV is written into the IV register (R150, R233). -/
def storeDerivedIv (s : State) : State := { s with iv := derivedIv s }

/-- The completion of DERIVE_IV (R150). -/
def deriveIv (s : State) : State :=
  if s.parsed then endOk (storeDerivedIv s) else raiseRequest .notParsed s

/-- DERIVE_IV (R150). -/
def execDeriveIv (s : State) : Host.Outcome State Fault Refusal := .next (deriveIv s)

end Sys2Proof.Machine
end

