-- ==== Sys2Proof/Machine/KeyLoader.lean ====
section
/-! DEFINITION. LOAD_KEY (45_load_key.md rules R260 to R268). -/

namespace Sys2Proof.Machine

/-- The clearing of KEY_IN (R263). -/
def clearKeyIn (s : State) : State := { s with keyIn := zeroBlock }

/-- The staged key becomes KEY and is locked (R262). -/
def installKey (s : State) : State := { s with key := s.keyIn, keyValid := true }

/-- The completion of LOAD_KEY (R260). -/
def loadKey (s : State) : State :=
  if s.keyValid then raiseRequest .keyLocked s
  else if s.keyLen ≠ 16 then raiseError .invalidKeyLength (clearKeyIn s)
  else endOk (clearKeyIn (installKey s))

/-- LOAD_KEY (R260). -/
def execLoadKey (s : State) : Host.Outcome State Fault Refusal := .next (loadKey s)

end Sys2Proof.Machine
end

