-- ==== Sys2Proof/Machine/Parser.lean ====
section
/-! DEFINITION. PARSE (41_parse.md rules R120 to R131). -/

namespace Sys2Proof.Machine

/-- ParseHeader (R122): the header is copied by position, the payload is described, and a new record starts (R127). -/
def parseHeader (s : State) : State :=
  { s with
    lField := telByte s 0
    cField := telByte s 1
    mField := Vector.ofFn fun k : Fin 6 => telByte s (2 + k.val)
    ciField := telByte s 8
    ctOff := 9
    ctLen := s.telLen - 9
    parsed := true
    ptValid := false
    ptLen := 0
    outcome := OutcomeKind.none.code
    causeA := Cause.none.code
    causeB := Cause.none.code }

/-- ClearRecord (R129): what a failed parse leaves. -/
def clearRecord (s : State) : State :=
  { s with
    lField := 0
    cField := 0
    ciField := 0
    mField := Vector.replicate 6 0
    ctOff := 0
    ctLen := 0
    parsed := false
    ptValid := false
    ptLen := 0
    outcome := OutcomeKind.none.code
    causeA := Cause.none.code
    causeB := Cause.none.code }

/-- The completion of PARSE (R120), its tests in the order of R121. -/
def parse (s : State) : State :=
  if telTooLong s then raiseRequest .range s
  else if telTooShort s then raiseError .malformedTelegram (clearRecord s)
  else endOk (parseHeader s)

/-- PARSE (R120). -/
def execParse (s : State) : Host.Outcome State Fault Refusal := .next (parse s)

end Sys2Proof.Machine
end

