-- ==== Sys2Proof/Machine/Orchestration.lean ====
section
/-! DEFINITION. DECRYPT_TELEGRAM (44_decrypt_telegram.md rules R230 to R242). -/

namespace Sys2Proof.Machine

/-- Step 4 of R230: the attempt with the zero IV after a first attempt that failed with cause `c1` (R235). -/
def fallbackAttempt (ct : List Byte) (c1 : Cause) (s : State) : State :=
  match attempt ct zeroBlock s with
  | .ok pt => setOutcome .okZero c1 .none (commitPlaintext pt (afterAttempt ct s))
  | .fail c2 => setOutcome .failed c1 c2 (discardPlaintext (afterAttempt ct s))

/-- Steps 3 and 4 of R230: the attempt with the IV register, and the fallback after its failure (R234, R235). -/
def twoAttempts (ct : List Byte) (s : State) : State :=
  match attempt ct s.iv s with
  | .ok pt => setOutcome .okIvReg .none .none (commitPlaintext pt (afterAttempt ct s))
  | .fail c1 => fallbackAttempt ct c1 (afterAttempt ct s)

/-- Steps 1 to 4 of R230 on a telegram of acceptable length. -/
def parseAndDecrypt (s : State) : State :=
  let s := storeDerivedIv (parseHeader s)
  twoAttempts (ciphertext s) s

/-- The completion of DECRYPT_TELEGRAM (R230), its checks in the order of R231 and R232. -/
def decryptTelegram (s : State) : State :=
  if !s.keyValid then raiseRequest .noKey s
  else if telTooLong s then raiseRequest .range s
  else if telTooShort s then raiseError .malformedTelegram (clearRecord s)
  else endOk (parseAndDecrypt s)

/-- DECRYPT_TELEGRAM (R230). -/
def execDecryptTelegram (s : State) : Host.Outcome State Fault Refusal := .next (decryptTelegram s)

end Sys2Proof.Machine
end

