-- ==== Sys2Proof/Machine/Dispatch.lean ====
section
/-! DEFINITION. Which meaning each command has. A meaning is the whole completion of its command (70_reset_and_hazards.md
rule R329): the command's rule, the write of ERR and DETAIL, and the clearing of BUSY, in one atomic step (R330). -/

namespace Sys2Proof.Machine

def exec (i : Instr) (s : State) : Host.Outcome State Fault Refusal :=
  match i with
  | .parse => Sys2Proof.Machine.execParse s
  | .deriveIv => Sys2Proof.Machine.execDeriveIv s
  | .decrypt ivsrc => Sys2Proof.Machine.execDecrypt ivsrc s
  | .decryptTelegram => Sys2Proof.Machine.execDecryptTelegram s
  | .loadKey => Sys2Proof.Machine.execLoadKey s

end Sys2Proof.Machine
end

