-- ==== Sys2Proof/Machine/Port.lean ====
section
/-! DEFINITION. The host port (20_memory.md rules R60 to R72) and the busy rules (70_reset_and_hazards.md rules R328,
R331 and R332). -/

namespace Sys2Proof.Machine

/-- The number of bytes of an access (R61). -/
def widthBytes : Width → Nat
  | .w8 => 1
  | .w16 => 2
  | .w32 => 4

/-- The control registers, in the order of their offsets (R62). -/
inductive CtlReg where
  | cmd
  | status
  | telLen
  | keyLen
  | ctOff
  | ctLen
  | ptLen
  | hdr
  | mfieldLo
  | mfieldHi
  | mcode
  | serial
  | verDev
  | param
  deriving DecidableEq, Repr

/-- The control registers by word index; offsets 0x038 to 0x03F are unmapped (R62). -/
def ctlRegAt : Nat → Option CtlReg
  | 0 => some .cmd
  | 1 => some .status
  | 2 => some .telLen
  | 3 => some .keyLen
  | 4 => some .ctOff
  | 5 => some .ctLen
  | 6 => some .ptLen
  | 7 => some .hdr
  | 8 => some .mfieldLo
  | 9 => some .mfieldHi
  | 10 => some .mcode
  | 11 => some .serial
  | 12 => some .verDev
  | 13 => some .param
  | _ => none

/-- What a mapped offset of the window is: a byte of a control register, or a byte of one of the four byte regions. -/
inductive Loc where
  /-- Byte `k` of a control register. -/
  | ctl (r : CtlReg) (k : Nat)
  | iv (i : Fin 16)
  | keyIn (i : Fin 16)
  | telBuf (i : Nat)
  | ptBuf (i : Nat)
  deriving DecidableEq, Repr

/-- The regions of R62. -/
inductive Region where
  | control
  | iv
  | keyIn
  | telBuf
  | ptBuf
  deriving DecidableEq, Repr

/-- The region a location lies in. -/
def Loc.region : Loc → Region
  | .ctl _ _ => .control
  | .iv _ => .iv
  | .keyIn _ => .keyIn
  | .telBuf _ => .telBuf
  | .ptBuf _ => .ptBuf

/-- The address map (R62): what stands at offset `o` of the window of a block with this TEL_MAX; none where the offset
is unmapped. -/
def locate (telMax o : Nat) : Option Loc :=
  if o < 0x040 then (ctlRegAt (o / 4)).map (Loc.ctl · (o % 4))
  else if o < 0x050 then some (.iv (Fin.ofNat 16 (o - 0x040)))
  else if o < 0x060 then some (.keyIn (Fin.ofNat 16 (o - 0x050)))
  else if o < 0x400 then none
  else if o < 0x800 then (if o - 0x400 < telMax then some (.telBuf (o - 0x400)) else none)
  else if o < 0xC00 then (if o - 0x800 < telMax then some (.ptBuf (o - 0x800)) else none)
  else none

/-- Every byte of an access of `n` bytes at offset `o` is a mapped byte of the region (R65). -/
def allInRegion (telMax o n : Nat) (r : Region) : Bool :=
  (List.range n).all fun k => (locate telMax (o + k)).map Loc.region == some r

/-- `Legal(a, n)` (R62, R64, R65): in the control region aligned 4-byte accesses alone; in a byte region naturally
aligned accesses inside the region. -/
def legal (telMax o n : Nat) : Bool :=
  match locate telMax o with
  | none => false
  | some (.ctl _ _) => n == 4 && o % 4 == 0
  | some l => o % n == 0 && allInRegion telMax o n l.region

/-- The control registers that a write is a bus error for (R67). -/
def CtlReg.readOnly : CtlReg → Bool
  | .cmd => false
  | .status => true
  | .telLen => false
  | .keyLen => false
  | .ctOff => false
  | .ctLen => false
  | .ptLen => true
  | .hdr => true
  | .mfieldLo => true
  | .mfieldHi => true
  | .mcode => true
  | .serial => true
  | .verDev => true
  | .param => true

/-- `ReadOnly(a)` (R67). -/
def Loc.readOnly : Loc → Bool
  | .ctl r _ => r.readOnly
  | .iv _ => false
  | .keyIn _ => false
  | .telBuf _ => false
  | .ptBuf _ => true

/-- The value of a control register's word (10_state.md; bits that a register does not define are 0, R68; CMD reads
0, R69). -/
def ctlWord (s : State) : CtlReg → Word
  | .cmd => 0
  | .status => statusWord s
  | .telLen => s.telLen.setWidth 32
  | .keyLen => s.keyLen.setWidth 32
  | .ctOff => s.ctOff.setWidth 32
  | .ctLen => s.ctLen.setWidth 32
  | .ptLen => s.ptLen.setWidth 32
  | .hdr => hdrWord s
  | .mfieldLo => mfieldLoWord s
  | .mfieldHi => mfieldHiWord s
  | .mcode => (mcode s).setWidth 32
  | .serial => serial s
  | .verDev => verDevWord
  | .param => s.telMax.setWidth 32

/-- The byte at a location while BUSY = 0: `ByteAt` of R66; KEY_IN reads 0 (R69). -/
def locByte (s : State) : Loc → Byte
  | .ctl r k => byteOf (ctlWord s r) k
  | .iv i => s.iv[i]
  | .keyIn _ => 0
  | .telBuf i => telByte s i
  | .ptBuf i => ptByte s i

/-- The bits of a control register that read exactly while BUSY = 1 (R332); of STATUS they are BUSY, HAZ, BUSERR and
the bits that are always 0 (R23). -/
def CtlReg.exactBits : CtlReg → Word
  | .cmd => 0xFFFFFFFF
  | .status => 0xFC8800F1
  | .telLen => 0xFFFFFFFF
  | .keyLen => 0xFFFFFFFF
  | .ctOff => 0
  | .ctLen => 0
  | .ptLen => 0
  | .hdr => 0
  | .mfieldLo => 0
  | .mfieldHi => 0
  | .mcode => 0
  | .serial => 0
  | .verDev => 0
  | .param => 0xFFFFFFFF

/-- The bits of the byte at a location that read exactly while BUSY = 1 (R332). -/
def Loc.exactBits : Loc → Byte
  | .ctl r k => byteOf r.exactBits k
  | .iv _ => 0
  | .keyIn _ => 0xFF
  | .telBuf _ => 0xFF
  | .ptBuf _ => 0

/-- What the port reads at a location: the byte there, and while BUSY = 1 the bits outside R332's list are those of
`free`. -/
def readLoc (s : State) (free : Byte) (l : Loc) : Byte :=
  if s.busy then (locByte s l &&& l.exactBits) ||| (free &&& ~~~l.exactBits) else locByte s l

/-- Byte `k` of a read at offset `o`; its unspecified bits are those of the current free draw (R332). -/
def readAt (s : State) (o k : Nat) : Byte :=
  match locate s.telMax.toNat (o + k) with
  | some l => readLoc s (byteOf (Config.freeWord s.freeDraws) k) l
  | none => 0

/-- The data of a legal read of `n` bytes at offset `o`, little-endian (R63, R66). -/
def readData (s : State) (o n : Nat) : Word := leBytes ((List.range n).map (readAt s o))

/-- The sticky bit that every bus error sets, and nothing else (R29, R70). -/
def setBusErr (s : State) : State := { s with busErr := true }

/-- The sticky bit that a write while BUSY = 1 sets (R28, R331). -/
def setHaz (s : State) : State := { s with haz := true }

/-- `MemRead(a, n)` (R66): the answer, and the state after it. A legal read changes nothing of WMBDEC; while BUSY = 1
it uses up a free draw (R332). -/
def memRead (a : BitVec 12) (n : Width) (s : State) : Response × State :=
  if legal s.telMax.toNat a.toNat (widthBytes n) then
    (⟨false, readData s a.toNat (widthBytes n)⟩, if s.busy then useDraw s else s)
  else (⟨true, 0⟩, setBusErr s)

/-- `Issue(v)` (R328); how long the command stays in flight is a free draw (R9). -/
def issue (v : Word) (s : State) : State :=
  useDraw { s with pending := some v, busy := true, lag := Config.latency s.freeDraws }

/-- `StoreByte` into a control register: only the bits the register defines are written (R67, R68). -/
def storeCtl (r : CtlReg) (k : Nat) (b : Byte) (s : State) : State :=
  match r with
  | .telLen => { s with telLen := withByte s.telLen k b }
  | .keyLen => { s with keyLen := withByte s.keyLen k b }
  | .ctOff => { s with ctOff := withByte s.ctOff k b }
  | .ctLen => { s with ctLen := withByte s.ctLen k b }
  | .cmd => s
  | .status => s
  | .ptLen => s
  | .hdr => s
  | .mfieldLo => s
  | .mfieldHi => s
  | .mcode => s
  | .serial => s
  | .verDev => s
  | .param => s

/-- `StoreByte` (R67); a location that no write reaches is left alone. -/
def storeLoc (l : Loc) (b : Byte) (s : State) : State :=
  match l with
  | .ctl r k => storeCtl r k b s
  | .iv i => { s with iv := s.iv.set i b }
  | .keyIn i => { s with keyIn := s.keyIn.set i b }
  | .telBuf i => { s with telBuf := s.telBuf.write i b }
  | .ptBuf _ => s

/-- The byte stored at offset `o` of the window; an unmapped offset, which no legal write covers, is left alone. -/
def storeAt (o : Nat) (b : Byte) (s : State) : State :=
  match locate s.telMax.toNat o with
  | some l => storeLoc l b s
  | none => s

/-- The bytes of a legal write, stored from offset `o` on, lowest first (R63, R67). -/
def storeBytes : (o : Nat) → List Byte → State → State
  | _, [], s => s
  | o, b :: bs, s => storeBytes (o + 1) bs (storeAt o b s)

/-- The offset is unmapped or read only (R67). -/
def notWritable (telMax o : Nat) : Bool :=
  match locate telMax o with
  | some l => l.readOnly
  | none => true

/-- A write of this location is a bus error: it is not legal, or the location is read only (R67, R70). -/
def writeRefused (telMax o n : Nat) : Bool := !legal telMax o n || notWritable telMax o

/-- `MemWrite(a, n, v)` (R67): the answer, and the state after it. -/
def memWrite (a : BitVec 12) (n : Width) (v : Word) (s : State) : Response × State :=
  if writeRefused s.telMax.toNat a.toNat (widthBytes n) then (⟨true, 0⟩, setBusErr s)
  else if s.busy then (⟨false, 0⟩, setHaz s)
  else if a = 0x000 then (⟨false, 0⟩, issue v s)
  else (⟨false, 0⟩, storeBytes a.toNat ((List.range (widthBytes n)).map (byteOf v)) s)

end Sys2Proof.Machine
end

