-- ==== Sys2Proof/Machine/HostAgent.lean ====
section
/-! DEFINITION. The host and the reset input, which act on the block from outside: what a cycle of theirs does, whose
cycle it is, and the written form of host programs (70_reset_and_hazards.md rules R320 to R323 and R329;
30_encoding.md rules R97 and R98). -/

namespace Sys2Proof.Machine

/-- An answer of the port is recorded (R338). -/
def answer (r : Response) (s : State) : State := { s with responses := s.responses ++ [r] }

/-- The bits that an access of a width moves (R61). -/
def widthMask : Width → Word
  | .w8 => 0x000000FF
  | .w16 => 0x0000FFFF
  | .w32 => 0xFFFFFFFF

/-- An access made while reset is asserted has no effect, and its answer is unspecified (R320). -/
def accessInReset (n : Width) (s : State) : Response × State :=
  (⟨Config.freeFlag s.freeDraws, Config.freeWord s.freeDraws &&& widthMask n⟩, useDraw s)

/-- A read as the port performs it. -/
def portRead (a : BitVec 12) (n : Width) (s : State) : Response × State :=
  if s.inReset then accessInReset n s else memRead a n s

/-- A write as the port performs it. -/
def portWrite (a : BitVec 12) (n : Width) (v : Word) (s : State) : Response × State :=
  if s.inReset then accessInReset n s else memWrite a n v s

/-- Reset is asserted: every element of R20 takes its reset value, a command in flight is abandoned (R320, R321), and
the bytes of TEL_BUF and PT_BUF are drawn anew (R323). The host's program, the answers it has and the counters of the
draws are outside the block and go on. -/
def assertReset (s : State) : State :=
  { State.resetWith s.telMax with
    inReset := true
    host := s.host
    responses := s.responses
    faultDraws := s.faultDraws
    freeDraws := s.freeDraws + 1
    telDraw := s.freeDraws
    ptDraw := s.freeDraws }

/-- Reset is released: the block accepts host accesses at once (R324). -/
def releaseReset (s : State) : State := { s with inReset := false }

/-- One read of STATUS of the pseudo-instruction `wait`; it is repeated while the read shows BUSY = 1 (R98). -/
def waitOnce (s : State) : State :=
  let (r, s) := portRead 0x004 .w32 s
  let s := answer r s
  if r.data.getLsbD 0 then { s with host := .wait :: s.host } else s

/-- One event of the host. -/
def perform (e : HostEvent) (s : State) : State :=
  match e with
  | .read a n => let (r, s) := portRead a n s; answer r s
  | .write a n v => let (r, s) := portWrite a n v s; answer r s
  | .wait => waitOnce s
  | .assertReset => assertReset s
  | .releaseReset => releaseReset s

/-- A cycle passes for the command in flight. -/
def tick (s : State) : State := { s with lag := s.lag - 1 }

/-- A cycle that is not the engine's: the host's next event happens, or nothing does (R73, R299). -/
def hostTurn (s : State) : State :=
  match s.host with
  | [] => tick s
  | e :: rest => perform e { tick s with host := rest }

/-- The two agents of R17. -/
inductive Agent where
  | host
  | engine
  deriving DecidableEq, Repr

/-- The engine's step is enabled while BUSY = 1 and reset is not asserted, and is taken when the cycles of its latency
have passed (R329). -/
def nextAgent (s : State) : Agent := if s.busy ∧ ¬ s.inReset ∧ s.lag = 0 then .engine else .host

/-! The written form of host programs (R97, R98); `w32`, `w16`, `w8`, `r32`, `r16` and `r8` are `HostEvent.write` and
`HostEvent.read` with their widths. -/

/-- `cmd`: the 4-byte write of a CMD word (R98). -/
def cmdProgram (w : Word) : List HostEvent := [.write 0x000 .w32 w]

/-- `wbytes OFF, b0 b1 ...` (R98). DESIGN CHOICE: where `OFF + i` passes 0xFFF, which is no window offset (R60) and of
which the spec says nothing, the offset goes on from 0x000 (log 17). -/
def wbytesProgram : (off : BitVec 12) → List Byte → List HostEvent
  | _, [] => []
  | off, b :: bs => .write off .w8 (b.setWidth 32) :: wbytesProgram (off + 1) bs

/-- `rbytes OFF, m` (R98). DESIGN CHOICE: past 0xFFF the offset goes on from 0x000, as in `wbytesProgram` (log 17). -/
def rbytesProgram : (off : BitVec 12) → (m : Nat) → List HostEvent
  | _, 0 => []
  | off, m + 1 => .read off .w8 :: rbytesProgram (off + 1) m

/-- A host program placed after what the host still has to do. -/
def withProgram (p : List HostEvent) (s : State) : State := { s with host := s.host ++ p }

end Sys2Proof.Machine
end

