-- ==== Sys2Proof/Machine/Step.lean ====
section
/-! DEFINITION. One step of the machine: a cycle of the host, or the completion of the command in flight
(70_reset_and_hazards.md rule R329). -/

namespace Sys2Proof.Machine

/-- One step. The completion decodes the pending CMD word (R92): a command is executed, and a word that names none ends
in its request error (R94). -/
def step (s : State) : Host.Outcome State Fault Refusal :=
  match nextAgent s with
  | .host => .next (hostTurn s)
  | .engine =>
    match s.pending with
    | none => .fault .busyWithoutCommand
    | some w =>
      match decode w with
      | .instr i => exec i s
      | .badOpcode => .next (raiseRequest .badOpcode s)
      | .reservedBits => .next (raiseRequest .reservedBits s)

/-- The state in which the CMD word `w` has been issued and its completion is the next step: WMBDEC fetches no
instructions (R76), so the word stands where R328 puts it (log 10). -/
def State.withFetchWord (s : State) (nbits w : Nat) : State :=
  { s with busy := true, pending := some (BitVec.ofNat 32 (w % 2 ^ nbits)), lag := 0, inReset := false }

end Sys2Proof.Machine
end

