-- ==== Sys2Proof/Machine/AesForward.lean ====
section
/-! DEFINITION. The AES-128 forward cipher and CBC encryption of FIPS-197 and NIST SP 800-38A. WMBDEC has no encryption
(R5, R192: it is done off the block), so no step uses this file; it is what the round trip of R192 is stated with
(PRESUMED, log 11). -/

namespace Sys2Proof.Machine.Aes

/-- SubBytes. -/
def subBytes (s : Block) : Block := s.map sbox

/-- ShiftRows: row `r` is rotated left by `r` positions. -/
def shiftRows (s : Block) : Block :=
  Vector.ofFn fun k : Fin 16 => s[k.val % 4 + 4 * ((k.val / 4 + k.val % 4) % 4)]

/-- Row `r` of a column mixed by MixColumns: the column's bytes are `a0` to `a3` counted from row `r`. -/
def mixByte (a0 a1 a2 a3 : Byte) : Byte := gmul a0 0x02 ^^^ gmul a1 0x03 ^^^ a2 ^^^ a3

/-- MixColumns. -/
def mixColumns (s : Block) : Block :=
  Vector.ofFn fun k : Fin 16 =>
    mixByte s[4 * (k.val / 4) + k.val % 4] s[4 * (k.val / 4) + (k.val + 1) % 4]
      s[4 * (k.val / 4) + (k.val + 2) % 4] s[4 * (k.val / 4) + (k.val + 3) % 4]

/-- The rounds 1 to `n`. -/
def forwardRounds (w : List KeyWord) : (n : Nat) → Block → Block
  | 0, s => s
  | n + 1, s => addRoundKey (mixColumns (shiftRows (subBytes (forwardRounds w n s)))) w (n + 1)

/-- The AES-128 cipher. -/
def cipher (block key : Block) : Block :=
  let w := keyExpansion key
  addRoundKey (shiftRows (subBytes (forwardRounds w 9 (addRoundKey block w 0)))) w 10

/-- The CBC encryption of the first `m` blocks of a byte sequence, `prev` being the ciphertext block before them. -/
def cbcEncryptBlocks (key : Block) : (m : Nat) → (prev : Block) → (pt : List Byte) → List Byte
  | 0, _, _ => []
  | m + 1, prev, pt =>
    let c := cipher (xorBlock (blockOf pt) prev) key
    c.toList ++ cbcEncryptBlocks key m c (pt.drop 16)

/-- AES-128-CBC encryption under a key and an IV. -/
def cbcEncrypt (pt : List Byte) (key iv : Block) : List Byte := cbcEncryptBlocks key (pt.length / 16) iv pt

end Sys2Proof.Machine.Aes
end

