-- ==== Sys2Proof/Safety.lean ====
section
/-! DEFINITION. What claims about WMBDEC are stated with: the invariants that its rules promise of every state a run
reaches, what a run without a recorded fault is, and the views of a state that two runs are compared by. -/

namespace Sys2Proof.Machine

/-- BUSY = 1 exactly while a command is pending (R24, R50), and never while reset is asserted (R320). -/
abbrev State.CommandCoherent (s : State) : Prop :=
  s.busy = s.pending.isSome ∧ (s.inReset = true → s.busy = false)

/-- No reserved code appears in STATUS (R282 to R284; 93_implementation_defined.md I7 and I13): ERR is 0, 1, 3, 4 or 5;
DETAIL is at most 6, and is not 0 exactly when ERR = REQUEST_ERROR; the causes are at most 4. -/
abbrev State.CodesLegal (s : State) : Prop :=
  s.err.toNat ≤ 5 ∧ s.err ≠ 2 ∧ s.detail.toNat ≤ 6 ∧ (s.err = 5 ↔ s.detail ≠ 0) ∧
    s.causeA.toNat ≤ 4 ∧ s.causeB.toNat ≤ 4

/-- The result fields of a decryption agree (R32, R33, R237): a success with the IV register has no cause, a success
with the zero IV has no second cause, a failure has a first cause, no decryption has none. -/
abbrev State.OutcomeCoherent (s : State) : Prop :=
  (s.outcome = 0 → s.causeA = 0 ∧ s.causeB = 0) ∧ (s.outcome = 1 → s.causeA = 0 ∧ s.causeB = 0) ∧
    (s.outcome = 2 → s.causeB = 0) ∧ (s.outcome = 3 → s.causeA ≠ 0)

/-- PT_VALID = 1 exactly when OUTCOME says that an attempt succeeded; then PT_LEN is a positive multiple of 16 within
TEL_MAX (90_conflicts.md C4) and no byte of PT_BUF below PT_LEN is unspecified (R49); else PT_LEN = 0 (R39). -/
abbrev State.PlaintextCoherent (s : State) : Prop :=
  (s.ptValid = true ↔ s.outcome = 1 ∨ s.outcome = 2) ∧
    (s.ptValid = false → s.ptLen = 0) ∧
    (s.ptValid = true → 16 ≤ s.ptLen.toNat ∧ s.ptLen.toNat % 16 = 0 ∧ s.ptLen.toNat ≤ s.telMax.toNat ∧
      ∀ i < s.ptLen.toNat, (s.ptBuf.read i).isSome)

/-- While PARSED = 0 the record registers hold nothing of a telegram (R26, R129). -/
abbrev State.RecordCoherent (s : State) : Prop :=
  s.parsed = false →
    s.lField = 0 ∧ s.cField = 0 ∧ s.ciField = 0 ∧ s.mField = Vector.replicate 6 0

/-- While KEY_VALID = 0 no key is held (R25, R46). -/
abbrev State.KeyCoherent (s : State) : Prop := s.keyValid = false → s.key = zeroBlock

/-- TEL_MAX is one that the spec allows (R7). -/
abbrev State.TelMaxLegal (s : State) : Prop :=
  Config.telMaxLeast ≤ s.telMax.toNat ∧ s.telMax.toNat ≤ Config.telMaxGreatest

/-- Both buffers are in canonical form and hold bytes at indexes below TEL_MAX alone (R48, R49). -/
abbrev State.MemoryCanonical (s : State) : Prop :=
  s.telBuf.wf ∧ s.telBuf.within s.telMax.toNat ∧ s.ptBuf.wf ∧ s.ptBuf.within s.telMax.toNat

/-- What holds of every state that a run from reset reaches. -/
abbrev State.Inv (s : State) : Prop :=
  s.CommandCoherent ∧ s.CodesLegal ∧ s.OutcomeCoherent ∧ s.PlaintextCoherent ∧ s.RecordCoherent ∧ s.KeyCoherent ∧
    s.TelMaxLegal ∧ s.MemoryCanonical

/-- Every element of R20 has its reset value for this TEL_MAX; TEL_BUF and PT_BUF hold no stored byte, so every byte of
them is unspecified (R320). -/
abbrev State.ElementsAtReset (telMax : BitVec 16) (s : State) : Prop :=
  (s.busy = false ∧ s.pending = none ∧ s.keyValid = false ∧ s.parsed = false ∧ s.ptValid = false ∧ s.haz = false ∧
    s.busErr = false) ∧
  (s.err = 0 ∧ s.detail = 0 ∧ s.causeA = 0 ∧ s.causeB = 0 ∧ s.outcome = 0) ∧
  (s.telLen = 0 ∧ s.keyLen = 0 ∧ s.ctOff = 0 ∧ s.ctLen = 0 ∧ s.ptLen = 0 ∧ s.telMax = telMax) ∧
  (s.lField = 0 ∧ s.cField = 0 ∧ s.ciField = 0 ∧ s.mField = Vector.replicate 6 0) ∧
  (s.iv = zeroBlock ∧ s.key = zeroBlock ∧ s.keyIn = zeroBlock ∧ s.telBuf = [] ∧ s.ptBuf = [])

/-- The premises that a claim about the end of a run takes (R338): no hazard and no bus error was recorded, and no
command is in flight. -/
abbrev State.RunClean (s : State) : Prop := s.haz = false ∧ s.busErr = false ∧ s.busy = false

/-- The value of an access of a width whose byte `k` is `b k`, widened with zero bits (R13, R63). -/
def leValue (n : Width) (b : Nat → Byte) : Word :=
  match n with
  | .w8 => (b 0).setWidth 32
  | .w16 => (le16 (b 0) (b 1)).setWidth 32
  | .w32 => le32 (b 0) (b 1) (b 2) (b 3)

/-- The source's `decrypted_payload`: absent while PT_VALID = 0 (R15, R27). -/
def decryptedPayload (s : State) : Option (List Byte) :=
  if s.ptValid then some ((List.range s.ptLen.toNat).map (ptByte s)) else none

/-- Two states hold the same record (R16). -/
abbrev SameRecord (s t : State) : Prop :=
  s.parsed = t.parsed ∧ s.lField = t.lField ∧ s.cField = t.cField ∧ s.ciField = t.ciField ∧ s.mField = t.mField ∧
    s.ctOff = t.ctOff ∧ s.ctLen = t.ctLen

/-- The completion of the pending command is the next step (R329). -/
abbrev State.Completes (s : State) (w : Word) : Prop :=
  s.busy = true ∧ s.inReset = false ∧ s.lag = 0 ∧ s.pending = some w

end Sys2Proof.Machine
end

