-- ==== Sys2Proof/Certificates/Slice0/Obligations.lean ====
section
/-! DEFINITION. The statements for the provers, in the order of the spec's files. A statement about `exec` says what the
whole completion of a command does (70_reset_and_hazards.md rule R329). Where a draw of ENGINE_FAULT decides (R8), the
statement covers every value of the draw. -/

open Sys2Proof Sys2Proof.Machine

/-! Encoding. -/

/-- R93: the words of the table name the commands of the table, and neighbours of them name none. A few fixed words. -/
def Obligations.TableWordsDecode : Prop :=
  decode 0x00000001 = .instr .parse ∧ decode 0x00000002 = .instr .deriveIv ∧
  decode 0x00000003 = .instr (.decrypt .ivReg) ∧ decode 0x00000103 = .instr (.decrypt .zeroIv) ∧
  decode 0x00000004 = .instr .decryptTelegram ∧ decode 0x00000005 = .instr .loadKey ∧
  decode 0x00000106 = .badOpcode ∧ decode 0x00000000 = .badOpcode ∧ decode 0x0000000F = .badOpcode ∧
  decode 0x00000011 = .reservedBits ∧ decode 0x00000101 = .reservedBits ∧ decode 0x80000003 = .reservedBits

/-- R93, which the spec marks as its inference from R90, R91 and R92: a word decodes to a command exactly when it is the
command's word, which are the words that a row's match and mask select; so decoding an encoded command gives it back, and
no other word names a command. -/
def Obligations.OnlyTheTablesWordsNameCommands : Prop :=
  (∀ i : Instr, decode (encode i) = .instr i) ∧
  (∀ (w : Word) (i : Instr), decode w = .instr i → w = encode i) ∧
  (∀ w : Word, cmdWellFormed w = true ↔ ∃ i, decode w = .instr i)

/-- R92: which of the three results decoding gives a word, by its OP, its IVSRC and its reserved bits as numbers; the
opcode test comes before the reserved-bit test. -/
def Obligations.DecodeTestsOpcodeThenReservedBits : Prop :=
  ∀ w : Word,
    let op := w.toNat % 16
    let reserved := w.toNat / 16 % 16 ≠ 0 ∨ w.toNat / 512 ≠ 0 ∨ (op ≠ 3 ∧ w.toNat / 256 % 2 = 1)
    ((op = 0 ∨ 6 ≤ op) → decode w = .badOpcode) ∧
    (1 ≤ op ∧ op ≤ 5 ∧ reserved → decode w = .reservedBits) ∧
    (1 ≤ op ∧ op ≤ 5 ∧ ¬ reserved →
      decode w = .instr (match op with
        | 1 => .parse
        | 2 => .deriveIv
        | 3 => .decrypt (if w.toNat / 256 % 2 = 1 then .zeroIv else .ivReg)
        | 4 => .decryptTelegram
        | _ => .loadKey))

/-- R94: the completion of a word with a reserved OP ends in RequestError(BAD_OPCODE), that of a word with a legal OP and
a reserved bit in RequestError(RESERVED_BITS), and nothing else changes. -/
def Obligations.IllegalWordsEndInRequestErrors : Prop :=
  ∀ (s : State) (w : Word), s.Completes w →
    (w.toNat % 16 = 0 ∨ 6 ≤ w.toNat % 16 →
      step s = .next { s with err := 5, detail := 1, busy := false, pending := none }) ∧
    (1 ≤ w.toNat % 16 ∧ w.toNat % 16 ≤ 5 ∧
        (w.toNat / 16 % 16 ≠ 0 ∨ w.toNat / 512 ≠ 0 ∨ (w.toNat % 16 ≠ 3 ∧ w.toNat / 256 % 2 = 1)) →
      step s = .next { s with err := 5, detail := 2, busy := false, pending := none })

/-! Command execution. -/

/-- R329: where a command's completion is the next step, the step is `exec` of the command that the pending word decodes
to. Nothing is added around it: the completion's own end clears BUSY (`CompletionEndsTheCommand`). -/
def Obligations.StepRunsTheDecodedCommand : Prop :=
  ∀ (s : State) (w : Word) (i : Instr), s.Completes w → decode w = .instr i → step s = exec i s

/-- R329: every pending word, legal or not, completes: the step answers a next state with BUSY = 0 and nothing pending.
What no completion touches (R20, the column "written by"): TEL_LEN, KEY_LEN, TEL_BUF, HAZ, BUSERR, TEL_MAX, and what is
outside the block. -/
def Obligations.CompletionEndsTheCommand : Prop :=
  ∀ (s : State) (w : Word), s.Completes w → ∃ t, step s = .next t ∧ t.busy = false ∧ t.pending = none ∧
    t.telLen = s.telLen ∧ t.keyLen = s.keyLen ∧ t.telBuf = s.telBuf ∧ t.telDraw = s.telDraw ∧ t.haz = s.haz ∧
    t.busErr = s.busErr ∧ t.telMax = s.telMax ∧ t.inReset = s.inReset ∧ t.host = s.host ∧
    t.responses = s.responses ∧ t.lag = s.lag

/-- R95, the column "writes": beside ERR, DETAIL and BUSY each command changes the registers of its row and no other.
The draw counters and `ptDraw` are the model's own. Every byte of TEL_BUF is unchanged, and every byte of PT_BUF by
DERIVE_IV and LOAD_KEY. PARSE changes neither what PT_BUF holds (R127, R129) nor a byte that was unspecified before it; where
it clears PT_VALID it makes the bytes below PT_LEN unspecified (R49), which they read as by the model's choice (log 3). -/
def Obligations.CommandsWriteOnlyTheirOperands : Prop :=
  ∀ (i : Instr) (s t : State), exec i s = .next t →
    (∀ k, telByte t k = telByte s k) ∧
    match i with
    | .parse =>
      (∀ k, t.ptValid = s.ptValid ∨ s.ptLen.toNat ≤ k → ptByte t k = ptByte s k) ∧
      t = { s with
        lField := t.lField, cField := t.cField, mField := t.mField, ciField := t.ciField, ctOff := t.ctOff
        ctLen := t.ctLen, parsed := t.parsed, ptValid := t.ptValid, ptLen := t.ptLen, outcome := t.outcome
        causeA := t.causeA, causeB := t.causeB, err := t.err, detail := t.detail, busy := false, pending := none }
    | .deriveIv =>
      (∀ k, ptByte t k = ptByte s k) ∧
      t = { s with iv := t.iv, err := t.err, detail := t.detail, busy := false, pending := none }
    | .decrypt _ =>
      t = { s with
        ptBuf := t.ptBuf, ptDraw := t.ptDraw, ptLen := t.ptLen, ptValid := t.ptValid, outcome := t.outcome
        causeA := t.causeA, causeB := t.causeB, err := t.err, detail := t.detail, busy := false, pending := none
        faultDraws := t.faultDraws, freeDraws := t.freeDraws }
    | .decryptTelegram =>
      t = { s with
        lField := t.lField, cField := t.cField, mField := t.mField, ciField := t.ciField, ctOff := t.ctOff
        ctLen := t.ctLen, parsed := t.parsed, iv := t.iv, ptBuf := t.ptBuf, ptDraw := t.ptDraw, ptLen := t.ptLen
        ptValid := t.ptValid, outcome := t.outcome, causeA := t.causeA, causeB := t.causeB, err := t.err
        detail := t.detail, busy := false, pending := none, faultDraws := t.faultDraws, freeDraws := t.freeDraws }
    | .loadKey =>
      (∀ k, ptByte t k = ptByte s k) ∧
      t = { s with
        key := t.key, keyValid := t.keyValid, keyIn := t.keyIn, err := t.err, detail := t.detail
        busy := false, pending := none }

/-- R288: a command, and a word that names none, which ends in a request error changes nothing but ERR, DETAIL and, as
every completion, BUSY. -/
def Obligations.RequestErrorsChangeNothingElse : Prop :=
  (∀ (i : Instr) (s t : State), exec i s = .next t → t.err = 5 →
    t = { s with err := 5, detail := t.detail, busy := false, pending := none }) ∧
  (∀ (s t : State) (w : Word), s.Completes w → step s = .next t → t.err = 5 →
    t = { s with err := 5, detail := t.detail, busy := false, pending := none })

/-- R289, its first five entries as one chain of tests over the pending word and the state: the ERR and DETAIL that the
completion of any word reports. Past them ERR is NONE, or, for a DECRYPT alone, NONE or DECRYPTION_FAILED (entry 6). -/
def Obligations.ErrorsAreReportedInPriorityOrder : Prop :=
  ∀ (s : State) (w : Word), s.Completes w → ∃ t, step s = .next t ∧
    let op := w.toNat % 16
    let long := s.telMax.toNat < s.telLen.toNat
    if op = 0 ∨ 6 ≤ op then t.err = 5 ∧ t.detail = 1
    else if w.toNat / 16 % 16 ≠ 0 ∨ w.toNat / 512 ≠ 0 ∨ (op ≠ 3 ∧ w.toNat / 256 % 2 = 1) then t.err = 5 ∧ t.detail = 2
    else if (op = 3 ∨ op = 4) ∧ s.keyValid = false then t.err = 5 ∧ t.detail = 3
    else if op = 5 ∧ s.keyValid = true then t.err = 5 ∧ t.detail = 4
    else if op = 2 ∧ s.parsed = false then t.err = 5 ∧ t.detail = 5
    else if (op = 1 ∨ op = 3 ∨ op = 4) ∧ long then t.err = 5 ∧ t.detail = 6
    else if op = 3 ∧ s.telLen.toNat < s.ctOff.toNat + s.ctLen.toNat then t.err = 5 ∧ t.detail = 6
    else if (op = 1 ∨ op = 4) ∧ s.telLen.toNat < 10 then t.err = 1 ∧ t.detail = 0
    else if op = 5 ∧ s.keyLen ≠ 16 then t.err = 3 ∧ t.detail = 0
    else t.detail = 0 ∧ (t.err = 0 ∨ (op = 3 ∧ t.err = 4))

/-! PARSE. -/

/-- R122 and R127: PARSE of a telegram of 10 to TEL_MAX bytes copies the header by position, describes the payload, and
starts a new record; nothing else changes. -/
def Obligations.ParseCopiesTheHeader : Prop :=
  ∀ s : State, 10 ≤ s.telLen.toNat → s.telLen.toNat ≤ s.telMax.toNat →
    exec .parse s = .next { s with
      lField := telByte s 0
      cField := telByte s 1
      mField := #v[telByte s 2, telByte s 3, telByte s 4, telByte s 5, telByte s 6, telByte s 7]
      ciField := telByte s 8
      ctOff := 9
      ctLen := BitVec.ofNat 16 (s.telLen.toNat - 9)
      parsed := true
      ptValid := false
      ptLen := 0
      outcome := 0
      causeA := 0
      causeB := 0
      err := 0
      detail := 0
      busy := false
      pending := none }

/-- R121 and R129: TEL_LEN > TEL_MAX ends in RequestError(RANGE) with nothing else changed, whatever else holds; else
TEL_LEN < 10 ends in MalformedTelegram with the record cleared. -/
def Obligations.ParseRefusesBadLengths : Prop :=
  ∀ s : State,
    (s.telMax.toNat < s.telLen.toNat →
      exec .parse s = .next { s with err := 5, detail := 6, busy := false, pending := none }) ∧
    (s.telLen.toNat ≤ s.telMax.toNat → s.telLen.toNat < 10 →
      exec .parse s = .next { s with
        lField := 0
        cField := 0
        ciField := 0
        mField := Vector.replicate 6 0
        ctOff := 0
        ctLen := 0
        parsed := false
        ptValid := false
        ptLen := 0
        outcome := 0
        causeA := 0
        causeB := 0
        err := 1
        detail := 0
        busy := false
        pending := none })

/-- R128: a second PARSE changes nothing that the first left, and the record and the status that PARSE of a length within
TEL_MAX leaves depend on TEL_LEN and TEL_BUF[0..9) alone. -/
def Obligations.ParseIsAPureFunctionOfTheHeader : Prop :=
  (∀ s t : State, exec .parse s = .next t → exec .parse t = .next t) ∧
  (∀ s u t v : State, s.telLen = u.telLen → s.telMax = u.telMax → s.telLen.toNat ≤ s.telMax.toNat →
    (∀ k < 9, telByte s k = telByte u k) → exec .parse s = .next t → exec .parse u = .next v →
    SameRecord t v ∧ t.ptValid = v.ptValid ∧ t.ptLen = v.ptLen ∧ t.outcome = v.outcome ∧ t.causeA = v.causeA ∧
      t.causeB = v.causeB ∧ t.err = v.err ∧ t.detail = v.detail)

/-- After a successful PARSE the host reads MCODE, SERIAL and VERDEV = 0 as the header gives them: R124, which the spec
marks as its inference from R122, R42 and R43, and R126. -/
def Obligations.ViewsAfterParse : Prop :=
  ∀ s : State, 10 ≤ s.telLen.toNat → s.telLen.toNat ≤ s.telMax.toNat → ∃ t, exec .parse s = .next t ∧
    memRead 0x028 .w32 t = (⟨false, (le16 (telByte s 2) (telByte s 3)).setWidth 32⟩, t) ∧
    memRead 0x02C .w32 t = (⟨false, le32 (telByte s 4) (telByte s 5) (telByte s 6) (telByte s 7)⟩, t) ∧
    memRead 0x030 .w32 t = (⟨false, 0⟩, t)

/-! DERIVE_IV. -/

/-- R150, R151 and R155: DERIVE_IV of a parsed record writes MFIELD ++ zeros(10) into IV and nothing else; without a
record it ends in RequestError(NOT_PARSED). -/
def Obligations.DeriveIvWritesMfieldAndZeros : Prop :=
  ∀ s : State,
    (s.parsed = true → exec .deriveIv s = .next { s with
      iv := #v[s.mField[0], s.mField[1], s.mField[2], s.mField[3], s.mField[4], s.mField[5],
        0, 0, 0, 0, 0, 0, 0, 0, 0, 0]
      err := 0
      detail := 0
      busy := false
      pending := none }) ∧
    (s.parsed = false →
      exec .deriveIv s = .next { s with err := 5, detail := 5, busy := false, pending := none })

/-- R153 and R154: parsed records with the same six M bytes get the same IV, whatever else the states hold. -/
def Obligations.SameManufacturerFieldSameIv : Prop :=
  ∀ s u t v : State, s.parsed = true → u.parsed = true → s.mField = u.mField →
    exec .deriveIv s = .next t → exec .deriveIv u = .next v → t.iv = v.iv

/-! DECRYPT. -/

/-- R171: DECRYPT checks the key, then the range of the slice, the sum being taken without wrapping; a request error
changes nothing but ERR and DETAIL. -/
def Obligations.DecryptChecksKeyThenRange : Prop :=
  ∀ (src : IvSrc) (s : State),
    (s.keyValid = false →
      exec (.decrypt src) s = .next { s with err := 5, detail := 3, busy := false, pending := none }) ∧
    (s.keyValid = true →
      s.telMax.toNat < s.telLen.toNat ∨ s.telLen.toNat < s.ctOff.toNat + s.ctLen.toNat →
      exec (.decrypt src) s = .next { s with err := 5, detail := 6, busy := false, pending := none })

/-- R173 and R176: DECRYPT of a slice whose length is 0 or no multiple of 16 fails with cause LENGTH, draws no
ENGINE_FAULT, and leaves no plaintext. -/
def Obligations.DecryptOfABadLengthFails : Prop :=
  ∀ (src : IvSrc) (s : State), s.keyValid = true → s.telLen.toNat ≤ s.telMax.toNat →
    s.ctOff.toNat + s.ctLen.toNat ≤ s.telLen.toNat → s.ctLen = 0 ∨ s.ctLen.toNat % 16 ≠ 0 →
    ∃ t, exec (.decrypt src) s = .next t ∧ decryptedPayload t = none ∧
      t = { s with
        err := 4, detail := 0, outcome := 3, causeA := 1, causeB := 0, ptValid := false, ptLen := 0
        busy := false, pending := none, ptBuf := t.ptBuf, ptDraw := t.ptDraw, freeDraws := t.freeDraws }

/-- R170, R174, R175 and R176: DECRYPT of a slice of acceptable length uses one ENGINE_FAULT draw. Where the draw is
NONE the plaintext is the CBC decryption of the slice under KEY and the chosen IV (which the spec supplies from general
knowledge, log 7), stored as it is; where it is not, the command fails with that cause and leaves no plaintext. Nothing
else changes. -/
def Obligations.DecryptOfWholeBlocks : Prop :=
  ∀ (src : IvSrc) (s : State), s.keyValid = true → s.telLen.toNat ≤ s.telMax.toNat →
    s.ctOff.toNat + s.ctLen.toNat ≤ s.telLen.toNat → s.ctLen ≠ 0 → s.ctLen.toNat % 16 = 0 →
    ∃ t, exec (.decrypt src) s = .next t ∧
      (Config.engineFault s.faultDraws = .none →
        decryptedPayload t = some (Aes.cbcDecrypt
          ((List.range s.ctLen.toNat).map fun k => telByte s (s.ctOff.toNat + k)) s.key
          (match src with | .ivReg => s.iv | .zeroIv => Vector.replicate 16 0)) ∧
        t.ptLen = s.ctLen ∧ t.outcome = (match src with | .ivReg => 1 | .zeroIv => 2) ∧ t.causeA = 0 ∧ t.err = 0) ∧
      (Config.engineFault s.faultDraws ≠ .none →
        decryptedPayload t = none ∧ t.ptLen = 0 ∧ t.outcome = 3 ∧ t.err = 4 ∧
        t.causeA = (match Config.engineFault s.faultDraws with | .none => 0 | .init => 2 | .update => 3 | .final => 4)) ∧
      t = { s with
        err := t.err, detail := 0, outcome := t.outcome, causeA := t.causeA, causeB := 0, ptValid := t.ptValid
        ptLen := t.ptLen, busy := false, pending := none, ptBuf := t.ptBuf, ptDraw := t.ptDraw
        faultDraws := s.faultDraws + 1, freeDraws := t.freeDraws }

/-- Neither the key nor the IV decides whether DECRYPT succeeds, so a wrong one is not detected: R178, which the spec
marks as its inference from R172 and R177. -/
def Obligations.SuccessDoesNotDependOnKeyOrIv : Prop :=
  ∀ (src : IvSrc) (s t u : State) (key iv : Block),
    exec (.decrypt src) s = .next t → exec (.decrypt src) { s with key := key, iv := iv } = .next u →
    t.err = u.err ∧ t.detail = u.detail ∧ t.outcome = u.outcome ∧ t.causeA = u.causeA ∧ t.causeB = u.causeB ∧
      t.ptValid = u.ptValid ∧ t.ptLen = u.ptLen

/-! AES-128. -/

/-- R185, supplied from general knowledge (log 7): every entry of the S-box is the affine image of a byte that is 0 for the byte 0 and an inverse under gmul for
every other byte. -/
def Obligations.SboxMeetsItsDefinition : Prop :=
  ∀ a : Byte, ∃ b : Byte, (a = 0 → b = 0) ∧ (a ≠ 0 → Aes.gmul a b = 1) ∧
    Aes.sbox a = b ^^^ Aes.rotl8 b 1 ^^^ Aes.rotl8 b 2 ^^^ Aes.rotl8 b 3 ^^^ Aes.rotl8 b 4 ^^^ 0x63

/-- R186, supplied from general knowledge (log 7): the inverse S-box inverts the S-box on every byte. -/
def Obligations.InverseSboxInvertsSbox : Prop := ∀ a : Byte, Aes.invSbox (Aes.sbox a) = a

/-- R190, supplied from general knowledge (log 7): a decryption of `m` blocks has the ciphertext's length, its block `j` is `InvCipher(C_j) ^ C_{j-1}` with
`C_{-1} = iv`, and two IVs give plaintexts that differ in the first block alone, by the exclusive-or of the IVs. -/
def Obligations.CbcBlocksChain : Prop :=
  ∀ (ct : List Byte) (key iv iv' : Block) (m : Nat), ct.length = 16 * m → 1 ≤ m →
    (Aes.cbcDecrypt ct key iv).length = ct.length ∧
    (∀ j < m, Aes.blockOf ((Aes.cbcDecrypt ct key iv).drop (16 * j)) =
      Aes.xorBlock (Aes.invCipher (Aes.blockOf (ct.drop (16 * j))) key)
        (if j = 0 then iv else Aes.blockOf (ct.drop (16 * (j - 1))))) ∧
    (Aes.cbcDecrypt ct key iv).drop 16 = (Aes.cbcDecrypt ct key iv').drop 16 ∧
    Aes.xorBlock (Aes.blockOf (Aes.cbcDecrypt ct key iv)) (Aes.blockOf (Aes.cbcDecrypt ct key iv')) =
      Aes.xorBlock iv iv'

/-- R192: for every key, IV and plaintext of whole blocks, where the slice holds the AES-128-CBC encryption of the
plaintext under KEY and the IV register, and the ENGINE_FAULT draw is not a failure, DECRYPT gives the plaintext. The
encryption is FIPS-197's, which the spec does not write out (`Aes.cbcEncrypt`, log 11: the model's choice). -/
def Obligations.DecryptInvertsCbcEncryption : Prop :=
  ∀ (s : State) (pt : List Byte), s.keyValid = true → s.telLen.toNat ≤ s.telMax.toNat →
    s.ctOff.toNat + s.ctLen.toNat ≤ s.telLen.toNat → pt ≠ [] → pt.length % 16 = 0 →
    (List.range s.ctLen.toNat).map (fun k => telByte s (s.ctOff.toNat + k)) = Aes.cbcEncrypt pt s.key s.iv →
    ∃ t, exec (.decrypt .ivReg) s = .next t ∧
      (decryptedPayload t = some pt ∧ t.err = 0 ∨ Config.engineFault s.faultDraws ≠ .none ∧ t.err = 4)

/-! DECRYPT_TELEGRAM. -/

/-- R231 and R232: DECRYPT_TELEGRAM checks the key, then TEL_LEN <= TEL_MAX, both with nothing else changed, then the
least length: a telegram below 10 bytes leaves a cleared record, and derives and decrypts nothing. -/
def Obligations.TelegramChecksKeyThenRangeThenLength : Prop :=
  ∀ s : State,
    (s.keyValid = false →
      exec .decryptTelegram s = .next { s with err := 5, detail := 3, busy := false, pending := none }) ∧
    (s.keyValid = true → s.telMax.toNat < s.telLen.toNat →
      exec .decryptTelegram s = .next { s with err := 5, detail := 6, busy := false, pending := none }) ∧
    (s.keyValid = true → s.telLen.toNat ≤ s.telMax.toNat → s.telLen.toNat < 10 →
      exec .decryptTelegram s = .next { s with
        lField := 0, cField := 0, ciField := 0, mField := Vector.replicate 6 0, ctOff := 0, ctLen := 0
        parsed := false, ptValid := false, ptLen := 0, outcome := 0, causeA := 0, causeB := 0
        err := 1, detail := 0, busy := false, pending := none })

/-- R230, R233 to R237: DECRYPT_TELEGRAM of a telegram of 10 to TEL_MAX bytes leaves the record that PARSE leaves, the
derived IV in IV, and ERR = NONE. A payload of no acceptable length fails both attempts with LENGTH and uses no draw.
Else the first draw decides the attempt with the derived IV, and after its failure the second draw the attempt with the
zero IV. What a successful attempt gives is the CBC decryption of R190, which the spec supplies from general knowledge
(PRESUMED, log 7). -/
def Obligations.TelegramMakesAtMostTwoAttempts : Prop :=
  ∀ s : State, s.keyValid = true → 10 ≤ s.telLen.toNat → s.telLen.toNat ≤ s.telMax.toNat →
    let n := s.telLen.toNat - 9
    let iv : Block := #v[telByte s 2, telByte s 3, telByte s 4, telByte s 5, telByte s 6, telByte s 7,
      0, 0, 0, 0, 0, 0, 0, 0, 0, 0]
    let ct := (List.range n).map fun k => telByte s (9 + k)
    let f1 := Config.engineFault s.faultDraws
    let f2 := Config.engineFault (s.faultDraws + 1)
    let code : EngineFault → BitVec 3 := fun f => match f with | .none => 0 | .init => 2 | .update => 3 | .final => 4
    ∃ t, exec .decryptTelegram s = .next t ∧
      t = { s with
        lField := telByte s 0, cField := telByte s 1, ciField := telByte s 8
        mField := #v[telByte s 2, telByte s 3, telByte s 4, telByte s 5, telByte s 6, telByte s 7]
        ctOff := 9, ctLen := BitVec.ofNat 16 n, parsed := true, iv := iv, err := 0, detail := 0
        busy := false, pending := none, ptBuf := t.ptBuf, ptDraw := t.ptDraw, ptLen := t.ptLen, ptValid := t.ptValid
        outcome := t.outcome, causeA := t.causeA, causeB := t.causeB
        faultDraws := t.faultDraws, freeDraws := t.freeDraws } ∧
      (n % 16 ≠ 0 →
        decryptedPayload t = none ∧ t.ptLen = 0 ∧ t.ptValid = false ∧ t.outcome = 3 ∧ t.causeA = 1 ∧ t.causeB = 1 ∧
        t.faultDraws = s.faultDraws) ∧
      (n % 16 = 0 → f1 = .none →
        decryptedPayload t = some (Aes.cbcDecrypt ct s.key iv) ∧ t.outcome = 1 ∧ t.causeA = 0 ∧ t.causeB = 0 ∧
        t.faultDraws = s.faultDraws + 1) ∧
      (n % 16 = 0 → f1 ≠ .none → f2 = .none →
        decryptedPayload t = some (Aes.cbcDecrypt ct s.key (Vector.replicate 16 0)) ∧ t.outcome = 2 ∧
        t.causeA = code f1 ∧ t.causeB = 0 ∧ t.faultDraws = s.faultDraws + 2) ∧
      (n % 16 = 0 → f1 ≠ .none → f2 ≠ .none →
        decryptedPayload t = none ∧ t.ptLen = 0 ∧ t.ptValid = false ∧ t.outcome = 3 ∧ t.causeA = code f1 ∧
        t.causeB = code f2 ∧ t.faultDraws = s.faultDraws + 2)

/-- R240, which the spec marks as its inference from R230, R172 and R173: with two NONE draws the outcome is decided by the length alone, and OK_ZERO is reached only by a first draw
that fails and a second that does not. -/
def Obligations.FallbackSucceedsOnlyAfterAnEngineFault : Prop :=
  ∀ s : State, s.keyValid = true → 10 ≤ s.telLen.toNat → s.telLen.toNat ≤ s.telMax.toNat →
    ∃ t, exec .decryptTelegram s = .next t ∧
      (Config.engineFault s.faultDraws = .none → Config.engineFault (s.faultDraws + 1) = .none →
        if (s.telLen.toNat - 9) % 16 = 0 then t.outcome = 1
        else t.outcome = 3 ∧ t.causeA = 1 ∧ t.causeB = 1) ∧
      (t.outcome = 2 →
        Config.engineFault s.faultDraws ≠ .none ∧ Config.engineFault (s.faultDraws + 1) = .none)

/-- R327, which the spec marks as its inference from R120, R150, R170 and R230: PARSE, DERIVE_IV, DECRYPT with the IV
register and, after its DECRYPTION_FAILED, DECRYPT with the zero IV give the record, IV, PT_LEN, PT_VALID and plaintext
that DECRYPT_TELEGRAM gives for the same draws. -/
def Obligations.StepByStepAgreesWithDecryptTelegram : Prop :=
  ∀ s s1 s2 s3 s4 t : State, s.keyValid = true → s.telLen.toNat ≤ s.telMax.toNat →
    exec .parse s = .next s1 → exec .deriveIv s1 = .next s2 → exec (.decrypt .ivReg) s2 = .next s3 →
    (if s3.err = 4 then exec (.decrypt .zeroIv) s3 = .next s4 else s4 = s3) →
    exec .decryptTelegram s = .next t →
    SameRecord t s4 ∧ t.iv = s4.iv ∧ t.ptLen = s4.ptLen ∧ t.ptValid = s4.ptValid ∧
      decryptedPayload t = decryptedPayload s4 ∧ t.faultDraws = s4.faultDraws

/-- R77: no command reads a byte of TEL_BUF at or above TEL_LEN: two states whose TEL_BUF agrees below TEL_LEN complete
alike, and the buffer itself is left as it was. -/
def Obligations.CommandsReadOnlyTheTelegram : Prop :=
  ∀ (i : Instr) (s t : State) (m : Memory) (d : Nat),
    (∀ k < s.telLen.toNat, telByte { s with telBuf := m, telDraw := d } k = telByte s k) →
    exec i s = .next t → exec i { s with telBuf := m, telDraw := d } = .next { t with telBuf := m, telDraw := d }

/-! LOAD_KEY. -/

/-- R260, R261 and R263: LOAD_KEY with no key loaded and KEY_LEN = 16 installs the staged key, locks it and clears KEY_IN;
with another KEY_LEN it ends in InvalidKeyLength and clears KEY_IN; with a key loaded it ends in RequestError(KEY_LOCKED)
and leaves KEY_IN. Nothing else changes. -/
def Obligations.LoadKeyInstallsOrRefuses : Prop :=
  ∀ s : State,
    (s.keyValid = false → s.keyLen = 16 → exec .loadKey s = .next { s with
      key := s.keyIn, keyValid := true, keyIn := Vector.replicate 16 0, err := 0, detail := 0
      busy := false, pending := none }) ∧
    (s.keyValid = false → s.keyLen ≠ 16 → exec .loadKey s = .next { s with
      keyIn := Vector.replicate 16 0, err := 3, detail := 0, busy := false, pending := none }) ∧
    (s.keyValid = true →
      exec .loadKey s = .next { s with err := 5, detail := 4, busy := false, pending := none })

/-! The host port. -/

/-- R64 and R65, with the map of R62: which accesses the port answers without a bus error, by arithmetic on the offset.
A read: in the control region an aligned 4-byte access below 0x038, in a byte region a naturally aligned access that
lies inside the region's mapped bytes. A write: the same, at no read-only location (R67). -/
def Obligations.LegalAccessesAreThoseOfTheMap : Prop :=
  ∀ (a : BitVec 12) (n : Width) (v : Word) (s : State), s.telMax.toNat ≤ 0x400 →
    let o := a.toNat
    let k := widthBytes n
    let m := s.telMax.toNat
    let ok := (k = 4 ∧ o % 4 = 0 ∧ o < 0x038) ∨
      (o % k = 0 ∧ ((0x040 ≤ o ∧ o + k ≤ 0x050) ∨ (0x050 ≤ o ∧ o + k ≤ 0x060) ∨
        (0x400 ≤ o ∧ o + k ≤ 0x400 + m) ∨ (0x800 ≤ o ∧ o + k ≤ 0x800 + m)))
    ((memRead a n s).1.busError = false ↔ ok) ∧
    ((memWrite a n v s).1.busError = false ↔
      ok ∧ o ≠ 0x004 ∧ ¬ (0x018 ≤ o ∧ o < 0x038) ∧ o < 0x800)

/-- R70: a read that is not legal answers a bus error with data 0, a write that is not legal or of a read-only location
answers a bus error, BUSY or not; BUSERR is set and nothing else changes. -/
def Obligations.BusErrorsSetOnlyBuserr : Prop :=
  ∀ (a : BitVec 12) (n : Width) (v : Word) (s : State),
    (legal s.telMax.toNat a.toNat (widthBytes n) = false →
      memRead a n s = (⟨true, 0⟩, { s with busErr := true }) ∧
      memWrite a n v s = (⟨true, 0⟩, { s with busErr := true })) ∧
    (a = 0x004 ∨ (0x018 ≤ a.toNat ∧ a.toNat ≤ 0x034) ∨ 0x800 ≤ a.toNat →
      memWrite a n v s = (⟨true, 0⟩, { s with busErr := true }))

/-- R66 and R72: no read changes the state of WMBDEC but BUSERR, which a bus error sets. The counter of the free draws is
the model's own. -/
def Obligations.ReadsHaveNoSideEffects : Prop :=
  ∀ (a : BitVec 12) (n : Width) (s t : State) (r : Response), memRead a n s = (r, t) →
    t = { s with busErr := s.busErr || r.busError, freeDraws := t.freeDraws }

/-- R23: the STATUS word that the host reads while BUSY = 0, field by field; every bit that no field has is 0. A write of
STATUS is a bus error. -/
def Obligations.StatusWordLayout : Prop :=
  ∀ s : State, s.busy = false → ∃ d, memRead 0x004 .w32 s = (⟨false, d⟩, s) ∧
    (∀ n v, memWrite 0x004 n v s = (⟨true, 0⟩, { s with busErr := true })) ∧
    d.getLsbD 0 = s.busy ∧ d.getLsbD 1 = s.keyValid ∧ d.getLsbD 2 = s.parsed ∧ d.getLsbD 3 = s.ptValid ∧
    d.getLsbD 4 = s.haz ∧ d.getLsbD 5 = s.busErr ∧ d.extractLsb' 6 2 = 0 ∧ d.extractLsb' 8 4 = s.err ∧
    d.extractLsb' 12 4 = s.detail ∧ d.extractLsb' 16 3 = s.causeA ∧ d.getLsbD 19 = false ∧
    d.extractLsb' 20 3 = s.causeB ∧ d.getLsbD 23 = false ∧ d.extractLsb' 24 2 = s.outcome ∧ d.extractLsb' 26 6 = 0

/-- R34 to R44: the words of the other control registers while BUSY = 0; a bit that a register does not define reads 0
(R68), and CMD reads 0 (R69). -/
def Obligations.ControlRegisterWords : Prop :=
  ∀ s : State, s.busy = false →
    memRead 0x000 .w32 s = (⟨false, 0⟩, s) ∧
    memRead 0x008 .w32 s = (⟨false, s.telLen.setWidth 32⟩, s) ∧
    memRead 0x00C .w32 s = (⟨false, s.keyLen.setWidth 32⟩, s) ∧
    memRead 0x010 .w32 s = (⟨false, s.ctOff.setWidth 32⟩, s) ∧
    memRead 0x014 .w32 s = (⟨false, s.ctLen.setWidth 32⟩, s) ∧
    memRead 0x018 .w32 s = (⟨false, s.ptLen.setWidth 32⟩, s) ∧
    memRead 0x01C .w32 s = (⟨false, le32 s.lField s.cField s.ciField 0⟩, s) ∧
    memRead 0x020 .w32 s = (⟨false, le32 s.mField[0] s.mField[1] s.mField[2] s.mField[3]⟩, s) ∧
    memRead 0x024 .w32 s = (⟨false, le32 s.mField[4] s.mField[5] 0 0⟩, s) ∧
    memRead 0x028 .w32 s = (⟨false, le32 s.mField[0] s.mField[1] 0 0⟩, s) ∧
    memRead 0x02C .w32 s = (⟨false, le32 s.mField[2] s.mField[3] s.mField[4] s.mField[5]⟩, s) ∧
    memRead 0x030 .w32 s = (⟨false, 0⟩, s) ∧
    memRead 0x034 .w32 s = (⟨false, s.telMax.setWidth 32⟩, s)

/-- R61, R63 and R66: the port is little-endian: while BUSY = 0 a naturally aligned read of 1, 2 or 4 bytes of TEL_BUF, of
PT_BUF or of IV gives its bytes lowest first, in a 4-byte read as a word, and changes nothing. -/
def Obligations.WordReadsAreLittleEndian : Prop :=
  ∀ (n : Width) (s : State) (i : Nat), s.busy = false → s.telMax.toNat ≤ 0x400 → i % widthBytes n = 0 →
    (i + widthBytes n ≤ s.telMax.toNat →
      memRead (BitVec.ofNat 12 (0x400 + i)) n s = (⟨false, leValue n fun k => telByte s (i + k)⟩, s) ∧
      memRead (BitVec.ofNat 12 (0x800 + i)) n s = (⟨false, leValue n fun k => ptByte s (i + k)⟩, s)) ∧
    (i + widthBytes n ≤ 16 →
      memRead (BitVec.ofNat 12 (0x040 + i)) n s =
        (⟨false, leValue n fun k => if h : i + k < 16 then s.iv[i + k] else 0⟩, s))

/-- R69: a legal read of CMD or of KEY_IN returns 0, whether a command runs or not. -/
def Obligations.WriteOnlyLocationsReadZero : Prop :=
  ∀ (a : BitVec 12) (n : Width) (s : State), legal s.telMax.toNat a.toNat (widthBytes n) = true →
    a = 0x000 ∨ (0x050 ≤ a.toNat ∧ a.toNat < 0x060) → (memRead a n s).1 = ⟨false, 0⟩

/-- R34 to R37 and R68: while BUSY = 0 a write of TEL_LEN, KEY_LEN, CT_OFF or CT_LEN stores the bits that the register
defines, ignores the others, and changes nothing else. -/
def Obligations.LengthRegisterWrites : Prop :=
  ∀ (v : Word) (s : State), s.busy = false →
    memWrite 0x008 .w32 v s = (⟨false, 0⟩, { s with telLen := v.setWidth 16 }) ∧
    memWrite 0x00C .w32 v s = (⟨false, 0⟩, { s with keyLen := v.setWidth 8 }) ∧
    memWrite 0x010 .w32 v s = (⟨false, 0⟩, { s with ctOff := v.setWidth 16 }) ∧
    memWrite 0x014 .w32 v s = (⟨false, 0⟩, { s with ctLen := v.setWidth 16 })

/-- R67 and R78: while BUSY = 0 a legal write of TEL_BUF stores its bytes, lowest first, and changes no other byte of
TEL_BUF and nothing else: no record register follows it. -/
def Obligations.TelegramBufferWrites : Prop :=
  ∀ (n : Width) (i : Nat) (v : Word) (s : State), s.busy = false → s.telMax.toNat ≤ 0x400 →
    i % widthBytes n = 0 → i + widthBytes n ≤ s.telMax.toNat →
    ∃ t, memWrite (BitVec.ofNat 12 (0x400 + i)) n v s = (⟨false, 0⟩, t) ∧ t = { s with telBuf := t.telBuf } ∧
      (∀ k < widthBytes n, telByte t (i + k) = v.extractLsb' (8 * k) 8) ∧
      (∀ j, j < i ∨ i + widthBytes n ≤ j → telByte t j = telByte s j)

/-- R45, R47 and R67: while BUSY = 0 a legal write of IV or of KEY_IN stores its bytes and changes nothing else. -/
def Obligations.IvAndKeyInWrites : Prop :=
  ∀ (n : Width) (i : Nat) (v : Word) (s : State), s.busy = false →
    i % widthBytes n = 0 → i + widthBytes n ≤ 16 →
    (∃ t, memWrite (BitVec.ofNat 12 (0x040 + i)) n v s = (⟨false, 0⟩, t) ∧ t = { s with iv := t.iv } ∧
      ∀ (j : Nat) (h : j < 16), t.iv[j] =
        if i ≤ j ∧ j < i + widthBytes n then v.extractLsb' (8 * (j - i)) 8 else s.iv[j]) ∧
    (∃ t, memWrite (BitVec.ofNat 12 (0x050 + i)) n v s = (⟨false, 0⟩, t) ∧ t = { s with keyIn := t.keyIn } ∧
      ∀ (j : Nat) (h : j < 16), t.keyIn[j] =
        if i ≤ j ∧ j < i + widthBytes n then v.extractLsb' (8 * (j - i)) 8 else s.keyIn[j])

/-- R328: the host's write of CMD while BUSY = 0, as a step: the word becomes the pending command and BUSY = 1, with no
check of the word; nothing else of the block changes. -/
def Obligations.CmdWriteIssuesTheCommand : Prop :=
  ∀ (v : Word) (rest : List HostEvent) (s : State), s.busy = false → s.inReset = false →
    s.host = .write 0x000 .w32 v :: rest →
    ∃ t, step s = .next t ∧ t = { s with
      pending := some v, busy := true, host := rest, responses := s.responses ++ [⟨false, 0⟩]
      lag := t.lag, freeDraws := t.freeDraws }

/-- R331: a legal write of any writable location while BUSY = 1, CMD included, is answered without a bus error, sets HAZ,
and changes nothing else. -/
def Obligations.WriteWhileBusyIsDropped : Prop :=
  ∀ (a : BitVec 12) (n : Width) (v : Word) (s : State), s.busy = true →
    writeRefused s.telMax.toNat a.toNat (widthBytes n) = false →
    memWrite a n v s = (⟨false, 0⟩, { s with haz := true })

/-- R332: the reads that are exact while BUSY = 1: of STATUS the bits 0, 4 and 5 and those that are always 0, and all of
TEL_LEN, KEY_LEN, PARAM, CMD, and of KEY_IN and TEL_BUF in every width. No such read is a bus error. -/
def Obligations.ExactReadsWhileBusy : Prop :=
  ∀ s : State, s.busy = true → s.telMax.toNat ≤ 0x400 →
    (∃ d, (memRead 0x004 .w32 s).1 = ⟨false, d⟩ ∧ d.getLsbD 0 = true ∧ d.getLsbD 4 = s.haz ∧ d.getLsbD 5 = s.busErr ∧
      d.extractLsb' 6 2 = 0 ∧ d.getLsbD 19 = false ∧ d.getLsbD 23 = false ∧ d.extractLsb' 26 6 = 0) ∧
    (memRead 0x000 .w32 s).1 = ⟨false, 0⟩ ∧
    (memRead 0x008 .w32 s).1 = ⟨false, s.telLen.setWidth 32⟩ ∧
    (memRead 0x00C .w32 s).1 = ⟨false, s.keyLen.setWidth 32⟩ ∧
    (memRead 0x034 .w32 s).1 = ⟨false, s.telMax.setWidth 32⟩ ∧
    (∀ (n : Width) (i : Nat), i % widthBytes n = 0 → i + widthBytes n ≤ 16 →
      (memRead (BitVec.ofNat 12 (0x050 + i)) n s).1 = ⟨false, 0⟩) ∧
    (∀ (n : Width) (i : Nat), i % widthBytes n = 0 → i + widthBytes n ≤ s.telMax.toNat →
      (memRead (BitVec.ofNat 12 (0x400 + i)) n s).1 = ⟨false, leValue n fun k => telByte s (i + k)⟩)

/-! Reset. -/

/-- R320: the machine's reset state has every element at its reset value, with the TEL_MAX of an implementation that has
no other constraint (R7); a test of the constant. -/
def Obligations.ResetStateHasTheResetValues : Prop :=
  State.reset.ElementsAtReset 256 ∧ ∀ telMax, (State.resetWith telMax).ElementsAtReset telMax

/-- R320 and R321: when the host's next event is the assertion of reset and it is not the engine's turn, the step sets
every element to its reset value at once, whatever the state and whether or not a command is in flight; TEL_MAX, being
hardwired, stays. -/
def Obligations.ResetClearsEverything : Prop :=
  ∀ (s : State) (rest : List HostEvent), nextAgent s = .host → s.host = .assertReset :: rest →
    ∃ t, step s = .next t ∧ t.ElementsAtReset s.telMax ∧ t.inReset = true ∧ t.host = rest ∧ t.responses = s.responses

/-- R320: a host access made while reset is asserted has no effect on the block. A `wait` reads STATUS, and stays in the
host's list where the unspecified data shows bit 0 set (R98). -/
def Obligations.AccessesInResetHaveNoEffect : Prop :=
  ∀ (s : State) (rest : List HostEvent), s.inReset = true →
    ((∃ a n, s.host = .read a n :: rest) ∨ (∃ a n v, s.host = .write a n v :: rest) →
      ∃ r, step s = .next { s with
        host := rest, responses := s.responses ++ [r], lag := s.lag - 1, freeDraws := s.freeDraws + 1 }) ∧
    (s.host = .wait :: rest →
      ∃ r : Response, step s = .next { s with
        host := if r.data.getLsbD 0 then .wait :: rest else rest
        responses := s.responses ++ [r], lag := s.lag - 1, freeDraws := s.freeDraws + 1 })

/-- R324: when the host's next event is the release of reset, the step releases it and changes nothing else of the block,
so that the next access is performed (`HostAccessesHappenInProgramOrder`). -/
def Obligations.ReleaseOpensThePort : Prop :=
  ∀ (s : State) (rest : List HostEvent), nextAgent s = .host → s.host = .releaseReset :: rest →
    step s = .next { s with inReset := false, host := rest, lag := s.lag - 1 }

/-! Whole-machine rules. -/

/-- R73: when it is the host's turn and reset is not asserted, the step performs the next access of the host's program
order, as the statements about `memRead` and `memWrite` say, and records its answer; the access after it is a later
step's. A `wait` is one read of STATUS, repeated by a later step while BUSY reads 1 (R98); of an idle block it ends at
once. -/
def Obligations.HostAccessesHappenInProgramOrder : Prop :=
  ∀ (s : State) (rest : List HostEvent), nextAgent s = .host → s.inReset = false →
    (∀ a n, s.host = .read a n :: rest →
      let r := memRead a n { s with host := rest, lag := s.lag - 1 }
      step s = .next { r.2 with responses := s.responses ++ [r.1] }) ∧
    (∀ a n v, s.host = .write a n v :: rest →
      let r := memWrite a n v { s with host := rest, lag := s.lag - 1 }
      step s = .next { r.2 with responses := s.responses ++ [r.1] }) ∧
    (s.host = .wait :: rest →
      let r := memRead 0x004 .w32 { s with host := rest, lag := s.lag - 1 }
      step s = .next { r.2 with
        host := if r.1.data.getLsbD 0 then .wait :: rest else rest, responses := s.responses ++ [r.1] }) ∧
    (s.host = .wait :: rest → s.busy = false →
      step s = .next { s with
        host := rest, lag := s.lag - 1, responses := s.responses ++ [⟨false, statusWord s⟩] })

/-- The reset state meets every invariant of `State.Inv`. -/
def Obligations.ResetMeetsTheInvariant : Prop :=
  State.reset.Inv ∧
    ∀ telMax : BitVec 16, Config.telMaxLeast ≤ telMax.toNat → telMax.toNat ≤ Config.telMaxGreatest →
      (State.resetWith telMax).Inv

/-- Every step keeps `State.Inv`: BUSY and the pending command agree (R24, R50), no reserved code appears (R282 to R284),
OUTCOME and the causes agree (R32, R33), PT_VALID, PT_LEN, OUTCOME and the defined bytes of PT_BUF agree (R39, R49), an
unparsed record is empty (R26, R129), no key is held without KEY_VALID (R25), TEL_MAX stays legal (R7), and both buffers
stay in canonical form inside TEL_MAX (R48, R49). -/
def Obligations.StepKeepsTheInvariant : Prop :=
  ∀ s t : State, s.Inv → step s = .next t → t.Inv

/-- No state that meets the invariant stops the machine: a step always answers a next state (R280, R329). -/
def Obligations.NoStepStops : Prop :=
  ∀ s : State, s.busy = s.pending.isSome → ∃ t, step s = .next t

/-- R24: BUSY goes from 0 to 1 only by the host's write of CMD, which becomes the pending command, and from 1 to 0 only
by the completion or by reset. -/
def Obligations.BusyFollowsIssueAndCompletion : Prop :=
  ∀ s t : State, step s = .next t →
    (s.busy = false → t.busy = true →
      ∃ v rest, s.host = .write 0x000 .w32 v :: rest ∧ s.inReset = false ∧ t.pending = some v) ∧
    (s.busy = true → t.busy = false → nextAgent s = .engine ∨ ∃ rest, s.host = .assertReset :: rest)

/-- R25, R46, R262 and R322: once KEY_VALID = 1 no step but the assertion of reset changes KEY or clears KEY_VALID; and
KEY_VALID is set only by the completion of LOAD_KEY. -/
def Obligations.KeyIsImmutableUntilReset : Prop :=
  ∀ s t : State, step s = .next t →
    (s.keyValid = true → (∃ rest, nextAgent s = .host ∧ s.host = .assertReset :: rest) ∨
      (t.keyValid = true ∧ t.key = s.key)) ∧
    (s.keyValid = false → t.keyValid = true →
      nextAgent s = .engine ∧ s.pending = some 0x00000005 ∧ t.key = s.keyIn)

/-- R28, R29 and R322: no step but the assertion of reset clears HAZ or BUSERR, and HAZ is set only by a host write while
BUSY = 1. -/
def Obligations.FaultBitsAreSticky : Prop :=
  ∀ s t : State, step s = .next t →
    ((∃ rest, nextAgent s = .host ∧ s.host = .assertReset :: rest) ∨
      ((s.haz = true → t.haz = true) ∧ (s.busErr = true → t.busErr = true))) ∧
    (s.haz = false → t.haz = true → s.busy = true ∧ ∃ a n v rest, s.host = .write a n v :: rest)

/-- R266 and R69: the key never leaves the block by the port: two states that differ in KEY and KEY_IN alone answer every
step's access alike, in whatever state the block is. -/
def Obligations.NoAnswerDependsOnTheKey : Prop :=
  ∀ (s t u : State) (key keyIn : Block), step s = .next t →
    step { s with key := key, keyIn := keyIn } = .next u → u.responses = t.responses

/-- R98 and R329: the pseudo-instruction `wait` ends: from a busy state with a pending command whose host waits,
`lag + 2` steps bring the completion and then the read of STATUS that shows BUSY = 0, after which the host goes on. The
count is the model's choice, not the spec's: it rests on the latency counter of log 2 and on the one-agent cycle of log 16
(DESIGN CHOICE), and says nothing of cycles or accesses of the hardware, of which R337 bars every claim. -/
def Obligations.WaitEndsAfterTheCompletion : Prop :=
  ∀ (s : State) (rest : List HostEvent), s.busy = true → s.pending.isSome = true → s.inReset = false →
    s.host = .wait :: rest →
    ∃ t, core.run (s.lag + 2) s = .next t ∧ t.busy = false ∧ t.host = rest ∧
      t.responses.getLast? = some ⟨false, statusWord t⟩

/-- In this model a step from two states with PT_VALID = 0 that differ in the stored bytes of PT_BUF alone gives states that
differ in them alone, so with the same answers of the port, and with the same bytes where the step has set PT_VALID. That no
read then depends on the stored bytes is the MODEL'S CHOICE (log 3, DESIGN CHOICE), not a rule of the spec: R49 and R193 call
those bytes unspecified, R127, R129 and R130 say that PARSE leaves them as they are, and D18 lets an implementation leave
stale bytes there, on which this statement would be false; the model holds these together by a free value that is fixed by
the draw and the offset alone. -/
def Obligations.StalePlaintextIsNeverSeen : Prop :=
  ∀ (s t u : State) (m : Memory), s.ptValid = false → step s = .next t → step { s with ptBuf := m } = .next u →
    u = { t with ptBuf := u.ptBuf } ∧ (t.ptValid = true → u = t)
end

