-- ==== Sys2Proof/Laws/State.lean ====
section
/-! SUPPORT. What each named update of the state does to each field, one theorem an update: its conjuncts are the
rewrite rules, one a field, and every one holds by rfl, so that no later proof unfolds a record update. -/

namespace Sys2Proof.Machine

/-- A completion writes ERR and DETAIL and ends the command (R329). -/
@[simp] theorem finish_fields (e : ErrKind) (d : Detail) (s : State) :
    (finish e d s).busy = false ∧ (finish e d s).pending = none ∧ (finish e d s).keyValid = s.keyValid ∧
    (finish e d s).parsed = s.parsed ∧ (finish e d s).ptValid = s.ptValid ∧ (finish e d s).haz = s.haz ∧
    (finish e d s).busErr = s.busErr ∧ (finish e d s).err = e.code ∧ (finish e d s).detail = d.code ∧
    (finish e d s).causeA = s.causeA ∧ (finish e d s).causeB = s.causeB ∧ (finish e d s).outcome = s.outcome ∧
    (finish e d s).telLen = s.telLen ∧ (finish e d s).keyLen = s.keyLen ∧ (finish e d s).ctOff = s.ctOff ∧
    (finish e d s).ctLen = s.ctLen ∧ (finish e d s).ptLen = s.ptLen ∧ (finish e d s).lField = s.lField ∧
    (finish e d s).cField = s.cField ∧ (finish e d s).ciField = s.ciField ∧ (finish e d s).mField = s.mField ∧
    (finish e d s).iv = s.iv ∧ (finish e d s).key = s.key ∧ (finish e d s).keyIn = s.keyIn ∧
    (finish e d s).telBuf = s.telBuf ∧ (finish e d s).ptBuf = s.ptBuf ∧ (finish e d s).telMax = s.telMax ∧
    (finish e d s).inReset = s.inReset ∧ (finish e d s).host = s.host ∧ (finish e d s).responses = s.responses ∧
    (finish e d s).lag = s.lag ∧ (finish e d s).faultDraws = s.faultDraws ∧
    (finish e d s).freeDraws = s.freeDraws ∧ (finish e d s).telDraw = s.telDraw ∧
    (finish e d s).ptDraw = s.ptDraw :=
  ⟨rfl, rfl, rfl, rfl, rfl, rfl, rfl, rfl, rfl, rfl, rfl, rfl, rfl, rfl, rfl, rfl, rfl, rfl, rfl, rfl,
    rfl, rfl, rfl, rfl, rfl, rfl, rfl, rfl, rfl, rfl, rfl, rfl, rfl, rfl, rfl⟩

/-- An ENGINE_FAULT draw advances its counter (R8). -/
@[simp] theorem useFault_fields (s : State) :
    (useFault s).busy = s.busy ∧ (useFault s).pending = s.pending ∧ (useFault s).keyValid = s.keyValid ∧
    (useFault s).parsed = s.parsed ∧ (useFault s).ptValid = s.ptValid ∧ (useFault s).haz = s.haz ∧
    (useFault s).busErr = s.busErr ∧ (useFault s).err = s.err ∧ (useFault s).detail = s.detail ∧
    (useFault s).causeA = s.causeA ∧ (useFault s).causeB = s.causeB ∧ (useFault s).outcome = s.outcome ∧
    (useFault s).telLen = s.telLen ∧ (useFault s).keyLen = s.keyLen ∧ (useFault s).ctOff = s.ctOff ∧
    (useFault s).ctLen = s.ctLen ∧ (useFault s).ptLen = s.ptLen ∧ (useFault s).lField = s.lField ∧
    (useFault s).cField = s.cField ∧ (useFault s).ciField = s.ciField ∧ (useFault s).mField = s.mField ∧
    (useFault s).iv = s.iv ∧ (useFault s).key = s.key ∧ (useFault s).keyIn = s.keyIn ∧
    (useFault s).telBuf = s.telBuf ∧ (useFault s).ptBuf = s.ptBuf ∧ (useFault s).telMax = s.telMax ∧
    (useFault s).inReset = s.inReset ∧ (useFault s).host = s.host ∧ (useFault s).responses = s.responses ∧
    (useFault s).lag = s.lag ∧ (useFault s).faultDraws = s.faultDraws + 1 ∧ (useFault s).freeDraws = s.freeDraws ∧
    (useFault s).telDraw = s.telDraw ∧ (useFault s).ptDraw = s.ptDraw :=
  ⟨rfl, rfl, rfl, rfl, rfl, rfl, rfl, rfl, rfl, rfl, rfl, rfl, rfl, rfl, rfl, rfl, rfl, rfl, rfl, rfl,
    rfl, rfl, rfl, rfl, rfl, rfl, rfl, rfl, rfl, rfl, rfl, rfl, rfl, rfl, rfl⟩

/-- Another free draw advances its counter (R51). -/
@[simp] theorem useDraw_fields (s : State) :
    (useDraw s).busy = s.busy ∧ (useDraw s).pending = s.pending ∧ (useDraw s).keyValid = s.keyValid ∧
    (useDraw s).parsed = s.parsed ∧ (useDraw s).ptValid = s.ptValid ∧ (useDraw s).haz = s.haz ∧
    (useDraw s).busErr = s.busErr ∧ (useDraw s).err = s.err ∧ (useDraw s).detail = s.detail ∧
    (useDraw s).causeA = s.causeA ∧ (useDraw s).causeB = s.causeB ∧ (useDraw s).outcome = s.outcome ∧
    (useDraw s).telLen = s.telLen ∧ (useDraw s).keyLen = s.keyLen ∧ (useDraw s).ctOff = s.ctOff ∧
    (useDraw s).ctLen = s.ctLen ∧ (useDraw s).ptLen = s.ptLen ∧ (useDraw s).lField = s.lField ∧
    (useDraw s).cField = s.cField ∧ (useDraw s).ciField = s.ciField ∧ (useDraw s).mField = s.mField ∧
    (useDraw s).iv = s.iv ∧ (useDraw s).key = s.key ∧ (useDraw s).keyIn = s.keyIn ∧ (useDraw s).telBuf = s.telBuf ∧
    (useDraw s).ptBuf = s.ptBuf ∧ (useDraw s).telMax = s.telMax ∧ (useDraw s).inReset = s.inReset ∧
    (useDraw s).host = s.host ∧ (useDraw s).responses = s.responses ∧ (useDraw s).lag = s.lag ∧
    (useDraw s).faultDraws = s.faultDraws ∧ (useDraw s).freeDraws = s.freeDraws + 1 ∧
    (useDraw s).telDraw = s.telDraw ∧ (useDraw s).ptDraw = s.ptDraw :=
  ⟨rfl, rfl, rfl, rfl, rfl, rfl, rfl, rfl, rfl, rfl, rfl, rfl, rfl, rfl, rfl, rfl, rfl, rfl, rfl, rfl,
    rfl, rfl, rfl, rfl, rfl, rfl, rfl, rfl, rfl, rfl, rfl, rfl, rfl, rfl, rfl⟩

/-- ParseHeader (R122). -/
@[simp] theorem parseHeader_fields (s : State) :
    (parseHeader s).busy = s.busy ∧ (parseHeader s).pending = s.pending ∧ (parseHeader s).keyValid = s.keyValid ∧
    (parseHeader s).parsed = true ∧ (parseHeader s).ptValid = false ∧ (parseHeader s).haz = s.haz ∧
    (parseHeader s).busErr = s.busErr ∧ (parseHeader s).err = s.err ∧ (parseHeader s).detail = s.detail ∧
    (parseHeader s).causeA = 0 ∧ (parseHeader s).causeB = 0 ∧ (parseHeader s).outcome = 0 ∧
    (parseHeader s).telLen = s.telLen ∧ (parseHeader s).keyLen = s.keyLen ∧ (parseHeader s).ctOff = 9 ∧
    (parseHeader s).ctLen = s.telLen - 9 ∧ (parseHeader s).ptLen = 0 ∧ (parseHeader s).lField = telByte s 0 ∧
    (parseHeader s).cField = telByte s 1 ∧ (parseHeader s).ciField = telByte s 8 ∧
    (parseHeader s).mField = (Vector.ofFn fun k : Fin 6 => telByte s (2 + k.val)) ∧ (parseHeader s).iv = s.iv ∧
    (parseHeader s).key = s.key ∧ (parseHeader s).keyIn = s.keyIn ∧ (parseHeader s).telBuf = s.telBuf ∧
    (parseHeader s).ptBuf = s.ptBuf ∧ (parseHeader s).telMax = s.telMax ∧ (parseHeader s).inReset = s.inReset ∧
    (parseHeader s).host = s.host ∧ (parseHeader s).responses = s.responses ∧ (parseHeader s).lag = s.lag ∧
    (parseHeader s).faultDraws = s.faultDraws ∧ (parseHeader s).freeDraws = s.freeDraws ∧
    (parseHeader s).telDraw = s.telDraw ∧ (parseHeader s).ptDraw = s.ptDraw :=
  ⟨rfl, rfl, rfl, rfl, rfl, rfl, rfl, rfl, rfl, rfl, rfl, rfl, rfl, rfl, rfl, rfl, rfl, rfl, rfl, rfl,
    rfl, rfl, rfl, rfl, rfl, rfl, rfl, rfl, rfl, rfl, rfl, rfl, rfl, rfl, rfl⟩

/-- ClearRecord (R129). -/
@[simp] theorem clearRecord_fields (s : State) :
    (clearRecord s).busy = s.busy ∧ (clearRecord s).pending = s.pending ∧ (clearRecord s).keyValid = s.keyValid ∧
    (clearRecord s).parsed = false ∧ (clearRecord s).ptValid = false ∧ (clearRecord s).haz = s.haz ∧
    (clearRecord s).busErr = s.busErr ∧ (clearRecord s).err = s.err ∧ (clearRecord s).detail = s.detail ∧
    (clearRecord s).causeA = 0 ∧ (clearRecord s).causeB = 0 ∧ (clearRecord s).outcome = 0 ∧
    (clearRecord s).telLen = s.telLen ∧ (clearRecord s).keyLen = s.keyLen ∧ (clearRecord s).ctOff = 0 ∧
    (clearRecord s).ctLen = 0 ∧ (clearRecord s).ptLen = 0 ∧ (clearRecord s).lField = 0 ∧
    (clearRecord s).cField = 0 ∧ (clearRecord s).ciField = 0 ∧ (clearRecord s).mField = Vector.replicate 6 0 ∧
    (clearRecord s).iv = s.iv ∧ (clearRecord s).key = s.key ∧ (clearRecord s).keyIn = s.keyIn ∧
    (clearRecord s).telBuf = s.telBuf ∧ (clearRecord s).ptBuf = s.ptBuf ∧ (clearRecord s).telMax = s.telMax ∧
    (clearRecord s).inReset = s.inReset ∧ (clearRecord s).host = s.host ∧ (clearRecord s).responses = s.responses ∧
    (clearRecord s).lag = s.lag ∧ (clearRecord s).faultDraws = s.faultDraws ∧
    (clearRecord s).freeDraws = s.freeDraws ∧ (clearRecord s).telDraw = s.telDraw ∧
    (clearRecord s).ptDraw = s.ptDraw :=
  ⟨rfl, rfl, rfl, rfl, rfl, rfl, rfl, rfl, rfl, rfl, rfl, rfl, rfl, rfl, rfl, rfl, rfl, rfl, rfl, rfl,
    rfl, rfl, rfl, rfl, rfl, rfl, rfl, rfl, rfl, rfl, rfl, rfl, rfl, rfl, rfl⟩

/-- The derived IV goes into the IV register (R233). -/
@[simp] theorem storeDerivedIv_fields (s : State) :
    (storeDerivedIv s).busy = s.busy ∧ (storeDerivedIv s).pending = s.pending ∧
    (storeDerivedIv s).keyValid = s.keyValid ∧ (storeDerivedIv s).parsed = s.parsed ∧
    (storeDerivedIv s).ptValid = s.ptValid ∧ (storeDerivedIv s).haz = s.haz ∧
    (storeDerivedIv s).busErr = s.busErr ∧ (storeDerivedIv s).err = s.err ∧ (storeDerivedIv s).detail = s.detail ∧
    (storeDerivedIv s).causeA = s.causeA ∧ (storeDerivedIv s).causeB = s.causeB ∧
    (storeDerivedIv s).outcome = s.outcome ∧ (storeDerivedIv s).telLen = s.telLen ∧
    (storeDerivedIv s).keyLen = s.keyLen ∧ (storeDerivedIv s).ctOff = s.ctOff ∧
    (storeDerivedIv s).ctLen = s.ctLen ∧ (storeDerivedIv s).ptLen = s.ptLen ∧
    (storeDerivedIv s).lField = s.lField ∧ (storeDerivedIv s).cField = s.cField ∧
    (storeDerivedIv s).ciField = s.ciField ∧ (storeDerivedIv s).mField = s.mField ∧
    (storeDerivedIv s).key = s.key ∧ (storeDerivedIv s).keyIn = s.keyIn ∧ (storeDerivedIv s).telBuf = s.telBuf ∧
    (storeDerivedIv s).ptBuf = s.ptBuf ∧ (storeDerivedIv s).telMax = s.telMax ∧
    (storeDerivedIv s).inReset = s.inReset ∧ (storeDerivedIv s).host = s.host ∧
    (storeDerivedIv s).responses = s.responses ∧ (storeDerivedIv s).lag = s.lag ∧
    (storeDerivedIv s).faultDraws = s.faultDraws ∧ (storeDerivedIv s).freeDraws = s.freeDraws ∧
    (storeDerivedIv s).telDraw = s.telDraw ∧ (storeDerivedIv s).ptDraw = s.ptDraw :=
  by unfold storeDerivedIv; and_intros <;> rfl

/-- CommitPlaintext (R175). -/
@[simp] theorem commitPlaintext_fields (pt : List Byte) (s : State) :
    (commitPlaintext pt s).busy = s.busy ∧ (commitPlaintext pt s).pending = s.pending ∧
    (commitPlaintext pt s).keyValid = s.keyValid ∧ (commitPlaintext pt s).parsed = s.parsed ∧
    (commitPlaintext pt s).ptValid = true ∧ (commitPlaintext pt s).haz = s.haz ∧
    (commitPlaintext pt s).busErr = s.busErr ∧ (commitPlaintext pt s).err = s.err ∧
    (commitPlaintext pt s).detail = s.detail ∧ (commitPlaintext pt s).causeA = s.causeA ∧
    (commitPlaintext pt s).causeB = s.causeB ∧ (commitPlaintext pt s).outcome = s.outcome ∧
    (commitPlaintext pt s).telLen = s.telLen ∧ (commitPlaintext pt s).keyLen = s.keyLen ∧
    (commitPlaintext pt s).ctOff = s.ctOff ∧ (commitPlaintext pt s).ctLen = s.ctLen ∧
    (commitPlaintext pt s).ptLen = BitVec.ofNat 16 pt.length ∧ (commitPlaintext pt s).lField = s.lField ∧
    (commitPlaintext pt s).cField = s.cField ∧ (commitPlaintext pt s).ciField = s.ciField ∧
    (commitPlaintext pt s).mField = s.mField ∧ (commitPlaintext pt s).iv = s.iv ∧
    (commitPlaintext pt s).key = s.key ∧ (commitPlaintext pt s).keyIn = s.keyIn ∧
    (commitPlaintext pt s).telBuf = s.telBuf ∧ (commitPlaintext pt s).ptBuf = Memory.ofBytes 0 pt ∧
    (commitPlaintext pt s).telMax = s.telMax ∧ (commitPlaintext pt s).inReset = s.inReset ∧
    (commitPlaintext pt s).host = s.host ∧ (commitPlaintext pt s).responses = s.responses ∧
    (commitPlaintext pt s).lag = s.lag ∧ (commitPlaintext pt s).faultDraws = s.faultDraws ∧
    (commitPlaintext pt s).freeDraws = s.freeDraws + 1 ∧ (commitPlaintext pt s).telDraw = s.telDraw ∧
    (commitPlaintext pt s).ptDraw = s.freeDraws :=
  ⟨rfl, rfl, rfl, rfl, rfl, rfl, rfl, rfl, rfl, rfl, rfl, rfl, rfl, rfl, rfl, rfl, rfl, rfl, rfl, rfl,
    rfl, rfl, rfl, rfl, rfl, rfl, rfl, rfl, rfl, rfl, rfl, rfl, rfl, rfl, rfl⟩

/-- DiscardPlaintext (R176). -/
@[simp] theorem discardPlaintext_fields (s : State) :
    (discardPlaintext s).busy = s.busy ∧ (discardPlaintext s).pending = s.pending ∧
    (discardPlaintext s).keyValid = s.keyValid ∧ (discardPlaintext s).parsed = s.parsed ∧
    (discardPlaintext s).ptValid = false ∧ (discardPlaintext s).haz = s.haz ∧
    (discardPlaintext s).busErr = s.busErr ∧ (discardPlaintext s).err = s.err ∧
    (discardPlaintext s).detail = s.detail ∧ (discardPlaintext s).causeA = s.causeA ∧
    (discardPlaintext s).causeB = s.causeB ∧ (discardPlaintext s).outcome = s.outcome ∧
    (discardPlaintext s).telLen = s.telLen ∧ (discardPlaintext s).keyLen = s.keyLen ∧
    (discardPlaintext s).ctOff = s.ctOff ∧ (discardPlaintext s).ctLen = s.ctLen ∧ (discardPlaintext s).ptLen = 0 ∧
    (discardPlaintext s).lField = s.lField ∧ (discardPlaintext s).cField = s.cField ∧
    (discardPlaintext s).ciField = s.ciField ∧ (discardPlaintext s).mField = s.mField ∧
    (discardPlaintext s).iv = s.iv ∧ (discardPlaintext s).key = s.key ∧ (discardPlaintext s).keyIn = s.keyIn ∧
    (discardPlaintext s).telBuf = s.telBuf ∧ (discardPlaintext s).ptBuf = [] ∧
    (discardPlaintext s).telMax = s.telMax ∧ (discardPlaintext s).inReset = s.inReset ∧
    (discardPlaintext s).host = s.host ∧ (discardPlaintext s).responses = s.responses ∧
    (discardPlaintext s).lag = s.lag ∧ (discardPlaintext s).faultDraws = s.faultDraws ∧
    (discardPlaintext s).freeDraws = s.freeDraws + 1 ∧ (discardPlaintext s).telDraw = s.telDraw ∧
    (discardPlaintext s).ptDraw = s.freeDraws :=
  ⟨rfl, rfl, rfl, rfl, rfl, rfl, rfl, rfl, rfl, rfl, rfl, rfl, rfl, rfl, rfl, rfl, rfl, rfl, rfl, rfl,
    rfl, rfl, rfl, rfl, rfl, rfl, rfl, rfl, rfl, rfl, rfl, rfl, rfl, rfl, rfl⟩

/-- The result fields of a decryption (R32, R33). -/
@[simp] theorem setOutcome_fields (o : OutcomeKind) (a b : Cause) (s : State) :
    (setOutcome o a b s).busy = s.busy ∧ (setOutcome o a b s).pending = s.pending ∧
    (setOutcome o a b s).keyValid = s.keyValid ∧ (setOutcome o a b s).parsed = s.parsed ∧
    (setOutcome o a b s).ptValid = s.ptValid ∧ (setOutcome o a b s).haz = s.haz ∧
    (setOutcome o a b s).busErr = s.busErr ∧ (setOutcome o a b s).err = s.err ∧
    (setOutcome o a b s).detail = s.detail ∧ (setOutcome o a b s).causeA = a.code ∧
    (setOutcome o a b s).causeB = b.code ∧ (setOutcome o a b s).outcome = o.code ∧
    (setOutcome o a b s).telLen = s.telLen ∧ (setOutcome o a b s).keyLen = s.keyLen ∧
    (setOutcome o a b s).ctOff = s.ctOff ∧ (setOutcome o a b s).ctLen = s.ctLen ∧
    (setOutcome o a b s).ptLen = s.ptLen ∧ (setOutcome o a b s).lField = s.lField ∧
    (setOutcome o a b s).cField = s.cField ∧ (setOutcome o a b s).ciField = s.ciField ∧
    (setOutcome o a b s).mField = s.mField ∧ (setOutcome o a b s).iv = s.iv ∧ (setOutcome o a b s).key = s.key ∧
    (setOutcome o a b s).keyIn = s.keyIn ∧ (setOutcome o a b s).telBuf = s.telBuf ∧
    (setOutcome o a b s).ptBuf = s.ptBuf ∧ (setOutcome o a b s).telMax = s.telMax ∧
    (setOutcome o a b s).inReset = s.inReset ∧ (setOutcome o a b s).host = s.host ∧
    (setOutcome o a b s).responses = s.responses ∧ (setOutcome o a b s).lag = s.lag ∧
    (setOutcome o a b s).faultDraws = s.faultDraws ∧ (setOutcome o a b s).freeDraws = s.freeDraws ∧
    (setOutcome o a b s).telDraw = s.telDraw ∧ (setOutcome o a b s).ptDraw = s.ptDraw :=
  ⟨rfl, rfl, rfl, rfl, rfl, rfl, rfl, rfl, rfl, rfl, rfl, rfl, rfl, rfl, rfl, rfl, rfl, rfl, rfl, rfl,
    rfl, rfl, rfl, rfl, rfl, rfl, rfl, rfl, rfl, rfl, rfl, rfl, rfl, rfl, rfl⟩

/-- KEY_IN is cleared (R263). -/
@[simp] theorem clearKeyIn_fields (s : State) :
    (clearKeyIn s).busy = s.busy ∧ (clearKeyIn s).pending = s.pending ∧ (clearKeyIn s).keyValid = s.keyValid ∧
    (clearKeyIn s).parsed = s.parsed ∧ (clearKeyIn s).ptValid = s.ptValid ∧ (clearKeyIn s).haz = s.haz ∧
    (clearKeyIn s).busErr = s.busErr ∧ (clearKeyIn s).err = s.err ∧ (clearKeyIn s).detail = s.detail ∧
    (clearKeyIn s).causeA = s.causeA ∧ (clearKeyIn s).causeB = s.causeB ∧ (clearKeyIn s).outcome = s.outcome ∧
    (clearKeyIn s).telLen = s.telLen ∧ (clearKeyIn s).keyLen = s.keyLen ∧ (clearKeyIn s).ctOff = s.ctOff ∧
    (clearKeyIn s).ctLen = s.ctLen ∧ (clearKeyIn s).ptLen = s.ptLen ∧ (clearKeyIn s).lField = s.lField ∧
    (clearKeyIn s).cField = s.cField ∧ (clearKeyIn s).ciField = s.ciField ∧ (clearKeyIn s).mField = s.mField ∧
    (clearKeyIn s).iv = s.iv ∧ (clearKeyIn s).key = s.key ∧ (clearKeyIn s).keyIn = zeroBlock ∧
    (clearKeyIn s).telBuf = s.telBuf ∧ (clearKeyIn s).ptBuf = s.ptBuf ∧ (clearKeyIn s).telMax = s.telMax ∧
    (clearKeyIn s).inReset = s.inReset ∧ (clearKeyIn s).host = s.host ∧ (clearKeyIn s).responses = s.responses ∧
    (clearKeyIn s).lag = s.lag ∧ (clearKeyIn s).faultDraws = s.faultDraws ∧
    (clearKeyIn s).freeDraws = s.freeDraws ∧ (clearKeyIn s).telDraw = s.telDraw ∧
    (clearKeyIn s).ptDraw = s.ptDraw :=
  ⟨rfl, rfl, rfl, rfl, rfl, rfl, rfl, rfl, rfl, rfl, rfl, rfl, rfl, rfl, rfl, rfl, rfl, rfl, rfl, rfl,
    rfl, rfl, rfl, rfl, rfl, rfl, rfl, rfl, rfl, rfl, rfl, rfl, rfl, rfl, rfl⟩

/-- The staged key is installed (R262). -/
@[simp] theorem installKey_fields (s : State) :
    (installKey s).busy = s.busy ∧ (installKey s).pending = s.pending ∧ (installKey s).keyValid = true ∧
    (installKey s).parsed = s.parsed ∧ (installKey s).ptValid = s.ptValid ∧ (installKey s).haz = s.haz ∧
    (installKey s).busErr = s.busErr ∧ (installKey s).err = s.err ∧ (installKey s).detail = s.detail ∧
    (installKey s).causeA = s.causeA ∧ (installKey s).causeB = s.causeB ∧ (installKey s).outcome = s.outcome ∧
    (installKey s).telLen = s.telLen ∧ (installKey s).keyLen = s.keyLen ∧ (installKey s).ctOff = s.ctOff ∧
    (installKey s).ctLen = s.ctLen ∧ (installKey s).ptLen = s.ptLen ∧ (installKey s).lField = s.lField ∧
    (installKey s).cField = s.cField ∧ (installKey s).ciField = s.ciField ∧ (installKey s).mField = s.mField ∧
    (installKey s).iv = s.iv ∧ (installKey s).key = s.keyIn ∧ (installKey s).keyIn = s.keyIn ∧
    (installKey s).telBuf = s.telBuf ∧ (installKey s).ptBuf = s.ptBuf ∧ (installKey s).telMax = s.telMax ∧
    (installKey s).inReset = s.inReset ∧ (installKey s).host = s.host ∧ (installKey s).responses = s.responses ∧
    (installKey s).lag = s.lag ∧ (installKey s).faultDraws = s.faultDraws ∧
    (installKey s).freeDraws = s.freeDraws ∧ (installKey s).telDraw = s.telDraw ∧
    (installKey s).ptDraw = s.ptDraw :=
  ⟨rfl, rfl, rfl, rfl, rfl, rfl, rfl, rfl, rfl, rfl, rfl, rfl, rfl, rfl, rfl, rfl, rfl, rfl, rfl, rfl,
    rfl, rfl, rfl, rfl, rfl, rfl, rfl, rfl, rfl, rfl, rfl, rfl, rfl, rfl, rfl⟩

/-- A bus error sets BUSERR alone (R70). -/
@[simp] theorem setBusErr_fields (s : State) :
    (setBusErr s).busy = s.busy ∧ (setBusErr s).pending = s.pending ∧ (setBusErr s).keyValid = s.keyValid ∧
    (setBusErr s).parsed = s.parsed ∧ (setBusErr s).ptValid = s.ptValid ∧ (setBusErr s).haz = s.haz ∧
    (setBusErr s).busErr = true ∧ (setBusErr s).err = s.err ∧ (setBusErr s).detail = s.detail ∧
    (setBusErr s).causeA = s.causeA ∧ (setBusErr s).causeB = s.causeB ∧ (setBusErr s).outcome = s.outcome ∧
    (setBusErr s).telLen = s.telLen ∧ (setBusErr s).keyLen = s.keyLen ∧ (setBusErr s).ctOff = s.ctOff ∧
    (setBusErr s).ctLen = s.ctLen ∧ (setBusErr s).ptLen = s.ptLen ∧ (setBusErr s).lField = s.lField ∧
    (setBusErr s).cField = s.cField ∧ (setBusErr s).ciField = s.ciField ∧ (setBusErr s).mField = s.mField ∧
    (setBusErr s).iv = s.iv ∧ (setBusErr s).key = s.key ∧ (setBusErr s).keyIn = s.keyIn ∧
    (setBusErr s).telBuf = s.telBuf ∧ (setBusErr s).ptBuf = s.ptBuf ∧ (setBusErr s).telMax = s.telMax ∧
    (setBusErr s).inReset = s.inReset ∧ (setBusErr s).host = s.host ∧ (setBusErr s).responses = s.responses ∧
    (setBusErr s).lag = s.lag ∧ (setBusErr s).faultDraws = s.faultDraws ∧ (setBusErr s).freeDraws = s.freeDraws ∧
    (setBusErr s).telDraw = s.telDraw ∧ (setBusErr s).ptDraw = s.ptDraw :=
  ⟨rfl, rfl, rfl, rfl, rfl, rfl, rfl, rfl, rfl, rfl, rfl, rfl, rfl, rfl, rfl, rfl, rfl, rfl, rfl, rfl,
    rfl, rfl, rfl, rfl, rfl, rfl, rfl, rfl, rfl, rfl, rfl, rfl, rfl, rfl, rfl⟩

/-- A write while BUSY = 1 sets HAZ alone (R331). -/
@[simp] theorem setHaz_fields (s : State) :
    (setHaz s).busy = s.busy ∧ (setHaz s).pending = s.pending ∧ (setHaz s).keyValid = s.keyValid ∧
    (setHaz s).parsed = s.parsed ∧ (setHaz s).ptValid = s.ptValid ∧ (setHaz s).haz = true ∧
    (setHaz s).busErr = s.busErr ∧ (setHaz s).err = s.err ∧ (setHaz s).detail = s.detail ∧
    (setHaz s).causeA = s.causeA ∧ (setHaz s).causeB = s.causeB ∧ (setHaz s).outcome = s.outcome ∧
    (setHaz s).telLen = s.telLen ∧ (setHaz s).keyLen = s.keyLen ∧ (setHaz s).ctOff = s.ctOff ∧
    (setHaz s).ctLen = s.ctLen ∧ (setHaz s).ptLen = s.ptLen ∧ (setHaz s).lField = s.lField ∧
    (setHaz s).cField = s.cField ∧ (setHaz s).ciField = s.ciField ∧ (setHaz s).mField = s.mField ∧
    (setHaz s).iv = s.iv ∧ (setHaz s).key = s.key ∧ (setHaz s).keyIn = s.keyIn ∧ (setHaz s).telBuf = s.telBuf ∧
    (setHaz s).ptBuf = s.ptBuf ∧ (setHaz s).telMax = s.telMax ∧ (setHaz s).inReset = s.inReset ∧
    (setHaz s).host = s.host ∧ (setHaz s).responses = s.responses ∧ (setHaz s).lag = s.lag ∧
    (setHaz s).faultDraws = s.faultDraws ∧ (setHaz s).freeDraws = s.freeDraws ∧ (setHaz s).telDraw = s.telDraw ∧
    (setHaz s).ptDraw = s.ptDraw :=
  ⟨rfl, rfl, rfl, rfl, rfl, rfl, rfl, rfl, rfl, rfl, rfl, rfl, rfl, rfl, rfl, rfl, rfl, rfl, rfl, rfl,
    rfl, rfl, rfl, rfl, rfl, rfl, rfl, rfl, rfl, rfl, rfl, rfl, rfl, rfl, rfl⟩

/-- Issue (R328). -/
@[simp] theorem issue_fields (v : Word) (s : State) :
    (issue v s).busy = true ∧ (issue v s).pending = some v ∧ (issue v s).keyValid = s.keyValid ∧
    (issue v s).parsed = s.parsed ∧ (issue v s).ptValid = s.ptValid ∧ (issue v s).haz = s.haz ∧
    (issue v s).busErr = s.busErr ∧ (issue v s).err = s.err ∧ (issue v s).detail = s.detail ∧
    (issue v s).causeA = s.causeA ∧ (issue v s).causeB = s.causeB ∧ (issue v s).outcome = s.outcome ∧
    (issue v s).telLen = s.telLen ∧ (issue v s).keyLen = s.keyLen ∧ (issue v s).ctOff = s.ctOff ∧
    (issue v s).ctLen = s.ctLen ∧ (issue v s).ptLen = s.ptLen ∧ (issue v s).lField = s.lField ∧
    (issue v s).cField = s.cField ∧ (issue v s).ciField = s.ciField ∧ (issue v s).mField = s.mField ∧
    (issue v s).iv = s.iv ∧ (issue v s).key = s.key ∧ (issue v s).keyIn = s.keyIn ∧ (issue v s).telBuf = s.telBuf ∧
    (issue v s).ptBuf = s.ptBuf ∧ (issue v s).telMax = s.telMax ∧ (issue v s).inReset = s.inReset ∧
    (issue v s).host = s.host ∧ (issue v s).responses = s.responses ∧
    (issue v s).lag = Config.latency s.freeDraws ∧ (issue v s).faultDraws = s.faultDraws ∧
    (issue v s).freeDraws = s.freeDraws + 1 ∧ (issue v s).telDraw = s.telDraw ∧ (issue v s).ptDraw = s.ptDraw :=
  ⟨rfl, rfl, rfl, rfl, rfl, rfl, rfl, rfl, rfl, rfl, rfl, rfl, rfl, rfl, rfl, rfl, rfl, rfl, rfl, rfl,
    rfl, rfl, rfl, rfl, rfl, rfl, rfl, rfl, rfl, rfl, rfl, rfl, rfl, rfl, rfl⟩

/-- An answer of the port is recorded (R338). -/
@[simp] theorem answer_fields (r : Response) (s : State) :
    (answer r s).busy = s.busy ∧ (answer r s).pending = s.pending ∧ (answer r s).keyValid = s.keyValid ∧
    (answer r s).parsed = s.parsed ∧ (answer r s).ptValid = s.ptValid ∧ (answer r s).haz = s.haz ∧
    (answer r s).busErr = s.busErr ∧ (answer r s).err = s.err ∧ (answer r s).detail = s.detail ∧
    (answer r s).causeA = s.causeA ∧ (answer r s).causeB = s.causeB ∧ (answer r s).outcome = s.outcome ∧
    (answer r s).telLen = s.telLen ∧ (answer r s).keyLen = s.keyLen ∧ (answer r s).ctOff = s.ctOff ∧
    (answer r s).ctLen = s.ctLen ∧ (answer r s).ptLen = s.ptLen ∧ (answer r s).lField = s.lField ∧
    (answer r s).cField = s.cField ∧ (answer r s).ciField = s.ciField ∧ (answer r s).mField = s.mField ∧
    (answer r s).iv = s.iv ∧ (answer r s).key = s.key ∧ (answer r s).keyIn = s.keyIn ∧
    (answer r s).telBuf = s.telBuf ∧ (answer r s).ptBuf = s.ptBuf ∧ (answer r s).telMax = s.telMax ∧
    (answer r s).inReset = s.inReset ∧ (answer r s).host = s.host ∧ (answer r s).responses = s.responses ++ [r] ∧
    (answer r s).lag = s.lag ∧ (answer r s).faultDraws = s.faultDraws ∧ (answer r s).freeDraws = s.freeDraws ∧
    (answer r s).telDraw = s.telDraw ∧ (answer r s).ptDraw = s.ptDraw :=
  ⟨rfl, rfl, rfl, rfl, rfl, rfl, rfl, rfl, rfl, rfl, rfl, rfl, rfl, rfl, rfl, rfl, rfl, rfl, rfl, rfl,
    rfl, rfl, rfl, rfl, rfl, rfl, rfl, rfl, rfl, rfl, rfl, rfl, rfl, rfl, rfl⟩

/-- A cycle passes (R329). -/
@[simp] theorem tick_fields (s : State) :
    (tick s).busy = s.busy ∧ (tick s).pending = s.pending ∧ (tick s).keyValid = s.keyValid ∧
    (tick s).parsed = s.parsed ∧ (tick s).ptValid = s.ptValid ∧ (tick s).haz = s.haz ∧ (tick s).busErr = s.busErr ∧
    (tick s).err = s.err ∧ (tick s).detail = s.detail ∧ (tick s).causeA = s.causeA ∧ (tick s).causeB = s.causeB ∧
    (tick s).outcome = s.outcome ∧ (tick s).telLen = s.telLen ∧ (tick s).keyLen = s.keyLen ∧
    (tick s).ctOff = s.ctOff ∧ (tick s).ctLen = s.ctLen ∧ (tick s).ptLen = s.ptLen ∧ (tick s).lField = s.lField ∧
    (tick s).cField = s.cField ∧ (tick s).ciField = s.ciField ∧ (tick s).mField = s.mField ∧ (tick s).iv = s.iv ∧
    (tick s).key = s.key ∧ (tick s).keyIn = s.keyIn ∧ (tick s).telBuf = s.telBuf ∧ (tick s).ptBuf = s.ptBuf ∧
    (tick s).telMax = s.telMax ∧ (tick s).inReset = s.inReset ∧ (tick s).host = s.host ∧
    (tick s).responses = s.responses ∧ (tick s).lag = s.lag - 1 ∧ (tick s).faultDraws = s.faultDraws ∧
    (tick s).freeDraws = s.freeDraws ∧ (tick s).telDraw = s.telDraw ∧ (tick s).ptDraw = s.ptDraw :=
  ⟨rfl, rfl, rfl, rfl, rfl, rfl, rfl, rfl, rfl, rfl, rfl, rfl, rfl, rfl, rfl, rfl, rfl, rfl, rfl, rfl,
    rfl, rfl, rfl, rfl, rfl, rfl, rfl, rfl, rfl, rfl, rfl, rfl, rfl, rfl, rfl⟩

/-- Reset is released (R324). -/
@[simp] theorem releaseReset_fields (s : State) :
    (releaseReset s).busy = s.busy ∧ (releaseReset s).pending = s.pending ∧
    (releaseReset s).keyValid = s.keyValid ∧ (releaseReset s).parsed = s.parsed ∧
    (releaseReset s).ptValid = s.ptValid ∧ (releaseReset s).haz = s.haz ∧ (releaseReset s).busErr = s.busErr ∧
    (releaseReset s).err = s.err ∧ (releaseReset s).detail = s.detail ∧ (releaseReset s).causeA = s.causeA ∧
    (releaseReset s).causeB = s.causeB ∧ (releaseReset s).outcome = s.outcome ∧
    (releaseReset s).telLen = s.telLen ∧ (releaseReset s).keyLen = s.keyLen ∧ (releaseReset s).ctOff = s.ctOff ∧
    (releaseReset s).ctLen = s.ctLen ∧ (releaseReset s).ptLen = s.ptLen ∧ (releaseReset s).lField = s.lField ∧
    (releaseReset s).cField = s.cField ∧ (releaseReset s).ciField = s.ciField ∧
    (releaseReset s).mField = s.mField ∧ (releaseReset s).iv = s.iv ∧ (releaseReset s).key = s.key ∧
    (releaseReset s).keyIn = s.keyIn ∧ (releaseReset s).telBuf = s.telBuf ∧ (releaseReset s).ptBuf = s.ptBuf ∧
    (releaseReset s).telMax = s.telMax ∧ (releaseReset s).inReset = false ∧ (releaseReset s).host = s.host ∧
    (releaseReset s).responses = s.responses ∧ (releaseReset s).lag = s.lag ∧
    (releaseReset s).faultDraws = s.faultDraws ∧ (releaseReset s).freeDraws = s.freeDraws ∧
    (releaseReset s).telDraw = s.telDraw ∧ (releaseReset s).ptDraw = s.ptDraw :=
  ⟨rfl, rfl, rfl, rfl, rfl, rfl, rfl, rfl, rfl, rfl, rfl, rfl, rfl, rfl, rfl, rfl, rfl, rfl, rfl, rfl,
    rfl, rfl, rfl, rfl, rfl, rfl, rfl, rfl, rfl, rfl, rfl, rfl, rfl, rfl, rfl⟩

/-- The IV register holds the derived IV (R233). -/
@[simp] theorem storeDerivedIv_iv (s : State) : (storeDerivedIv s).iv = derivedIv s := by rw [storeDerivedIv]

end Sys2Proof.Machine
end

