-- ==== Sys2Proof/Laws/Attempt.lean ====
section
/-! SUPPORT. What a decryption attempt, its commit and its discard can do, said once (43_decrypt.md rules R172 to R176). -/

namespace Sys2Proof.Machine

/-- CBC decryption of `m` blocks gives `16 * m` bytes. -/
theorem Aes.length_cbcBlocks (key : Block) (m : Nat) (prev : Block) (ct : List Byte) :
    (Aes.cbcBlocks key m prev ct).length = 16 * m := by
  induction m generalizing prev ct with
  | zero => rfl
  | succ m ih => simp only [Aes.cbcBlocks, List.length_append, ih, Vector.length_toList]; omega

/-- CBC decryption keeps the length of a ciphertext of whole blocks (R190). -/
theorem Aes.length_cbcDecrypt {ct : List Byte} (h : ct.length % 16 = 0) (key iv : Block) :
    (Aes.cbcDecrypt ct key iv).length = ct.length := by
  rw [Aes.cbcDecrypt, Aes.length_cbcBlocks]; omega

/-- The lengths an attempt accepts (R173). -/
theorem attemptLengthOk_iff (n : Nat) : attemptLengthOk n = true ↔ n ≠ 0 ∧ n % 16 = 0 := by
  simp [attemptLengthOk]

/-- Every way an attempt can end (R172): the length is refused and no draw is used, or it is accepted, one ENGINE_FAULT
draw is used, and the draw decides. -/
theorem attempt_cases (ct : List Byte) (iv : Block) (s : State) :
    (¬ (ct.length ≠ 0 ∧ ct.length % 16 = 0) ∧ attempt ct iv s = .fail .length ∧ afterAttempt ct s = s) ∨
    ((ct.length ≠ 0 ∧ ct.length % 16 = 0) ∧ afterAttempt ct s = useFault s ∧
      ((nextFault s = .none ∧ attempt ct iv s = .ok (Aes.cbcDecrypt ct s.key iv)) ∨
        (nextFault s ≠ .none ∧ attempt ct iv s = .fail (causeOfFault (nextFault s))))) := by
  by_cases h : ct.length ≠ 0 ∧ ct.length % 16 = 0
  · have h' := (attemptLengthOk_iff _).2 h
    refine .inr ⟨h, by rw [afterAttempt, if_pos h'], ?_⟩
    rw [attempt, if_pos h']
    cases nextFault s with
    | none => exact .inl ⟨rfl, rfl⟩
    | init => exact .inr ⟨EngineFault.noConfusion, rfl⟩
    | update => exact .inr ⟨EngineFault.noConfusion, rfl⟩
    | final => exact .inr ⟨EngineFault.noConfusion, rfl⟩
  · have h' : ¬ attemptLengthOk ct.length = true := fun h' => h ((attemptLengthOk_iff _).1 h')
    exact .inl ⟨h, by rw [attempt, if_neg h'], by rw [afterAttempt, if_neg h']⟩

/-- A failed attempt has a cause other than NONE. -/
theorem attempt_fail_cause {ct : List Byte} {iv : Block} {s : State} {c : Cause} (h : attempt ct iv s = .fail c) :
    c ≠ .none := by
  rcases attempt_cases ct iv s with ⟨_, h', _⟩ | ⟨_, _, ⟨_, h'⟩ | ⟨hf, h'⟩⟩
  · rw [h'] at h; cases h; exact Cause.noConfusion
  · rw [h'] at h; cases h
  · rw [h'] at h; cases h
    cases hn : nextFault s with
    | none => exact absurd hn hf
    | init => exact Cause.noConfusion
    | update => exact Cause.noConfusion
    | final => exact Cause.noConfusion

/-- A successful attempt gives the CBC decryption of a ciphertext of whole blocks. -/
theorem attempt_ok {ct : List Byte} {iv : Block} {s : State} {pt : List Byte} (h : attempt ct iv s = .ok pt) :
    ct.length ≠ 0 ∧ ct.length % 16 = 0 ∧ pt = Aes.cbcDecrypt ct s.key iv ∧ pt.length = ct.length := by
  rcases attempt_cases ct iv s with ⟨_, h', _⟩ | ⟨hl, _, ⟨_, h'⟩ | ⟨_, h'⟩⟩
  · rw [h'] at h; cases h
  · rw [h'] at h; cases h; exact ⟨hl.1, hl.2, rfl, Aes.length_cbcDecrypt hl.2 _ _⟩
  · rw [h'] at h; cases h

/-- After CommitPlaintext the bytes of PT_BUF below the plaintext's length are the plaintext's (R175). -/
theorem ptByte_commitPlaintext {pt : List Byte} {i : Nat} (hl : pt.length < 2 ^ 16) (h : i < pt.length) (s : State) :
    ptByte (commitPlaintext pt s) i = pt[i] := by
  have hl : i < pt.length % 65536 := (Nat.mod_eq_of_lt hl).symm ▸ h
  simp [ptByte, Memory.read_ofBytes, hl, h]

/-- A slice of TEL_BUF has the length asked for. -/
@[simp] theorem length_telSlice (s : State) (off len : Nat) : (telSlice s off len).length = len := by simp [telSlice]

/-- The ciphertext has CT_LEN bytes (R37). -/
@[simp] theorem length_ciphertext (s : State) : (ciphertext s).length = s.ctLen.toNat := by simp [ciphertext]

end Sys2Proof.Machine
end

