-- ==== Sys2Proof/Laws/Operands.lean ====
section
/-! SUPPORT. What the operands of the commands are as numbers, and which updates of the state the bytes of the buffers
do not see. -/

namespace Sys2Proof.Machine

/-- TEL_LEN > TEL_MAX, as numbers. -/
theorem telTooLong_iff (s : State) : telTooLong s = true ↔ s.telMax.toNat < s.telLen.toNat := by simp [telTooLong]

/-- The telegram is shorter than 10 bytes, as numbers. -/
theorem telTooShort_iff (s : State) : telTooShort s = true ↔ s.telLen.toNat < 10 := by simp [telTooShort]

/-- The 17-bit sum of R171 is the exact sum. -/
theorem sliceTooLong_iff (s : State) : sliceTooLong s = true ↔ s.telLen.toNat < s.ctOff.toNat + s.ctLen.toNat := by
  have h1 := s.telLen.isLt
  have h2 := s.ctOff.isLt
  have h3 := s.ctLen.isLt
  simp only [sliceTooLong, BitVec.ult, decide_eq_true_eq, BitVec.toNat_add, BitVec.toNat_setWidth]
  omega

/-- The bytes of TEL_BUF are those of the buffer and of its draw. -/
theorem telByte_congr {s t : State} (hm : t.telBuf = s.telBuf) (hd : t.telDraw = s.telDraw) (i : Nat) :
    telByte t i = telByte s i := by rw [telByte, telByte, hm, hd]

/-- The bytes of PT_BUF are those of the buffer and of its draw, as far as PT_VALID and PT_LEN let them be read. -/
theorem ptByte_congr {s t : State} (hm : t.ptBuf = s.ptBuf) (hd : t.ptDraw = s.ptDraw) (hv : t.ptValid = s.ptValid)
    (hl : t.ptLen = s.ptLen) (i : Nat) : ptByte t i = ptByte s i := by
  simp only [ptByte, ptUnspecified, hm, hd, hv, hl]

/-- While PT_VALID = 0, and from PT_LEN on, a byte of PT_BUF is unspecified (R49). -/
theorem ptByte_unspecified {s : State} {i : Nat} (h : s.ptValid = false ∨ s.ptLen.toNat ≤ i) :
    ptByte s i = ptUnspecified s i :=
  if_neg fun ⟨hv, hl⟩ => h.elim (fun h => Bool.noConfusion (h.symm.trans hv)) (Nat.not_le.2 hl)

/-- The bytes that PT_VALID and PT_LEN leave unspecified are those of the draw, whatever the buffer holds (R49). -/
theorem ptByte_unspecified_congr {s t : State} {i : Nat} (hs : s.ptValid = false ∨ s.ptLen.toNat ≤ i)
    (ht : t.ptValid = false ∨ t.ptLen.toNat ≤ i) (hd : t.ptDraw = s.ptDraw) : ptByte t i = ptByte s i := by
  rw [ptByte_unspecified hs, ptByte_unspecified ht, ptUnspecified, ptUnspecified, hd]

/-- A slice of TEL_BUF is that of the buffer and of its draw. -/
theorem telSlice_congr {s t : State} (hm : t.telBuf = s.telBuf) (hd : t.telDraw = s.telDraw) (off len : Nat) :
    telSlice t off len = telSlice s off len := by simp only [telSlice, telByte_congr hm hd]

@[simp] theorem ptByte_finish (e : ErrKind) (d : Detail) (s : State) (i : Nat) :
    ptByte (finish e d s) i = ptByte s i := rfl

@[simp] theorem ptByte_setOutcome (o : OutcomeKind) (a b : Cause) (s : State) (i : Nat) :
    ptByte (setOutcome o a b s) i = ptByte s i := rfl

@[simp] theorem ptByte_storeDerivedIv (s : State) (i : Nat) : ptByte (storeDerivedIv s) i = ptByte s i :=
  ptByte_congr (by simp) (by simp) (by simp) (by simp) i

@[simp] theorem ptByte_clearKeyIn (s : State) (i : Nat) : ptByte (clearKeyIn s) i = ptByte s i := rfl

@[simp] theorem ptByte_installKey (s : State) (i : Nat) : ptByte (installKey s) i = ptByte s i := rfl

@[simp] theorem telByte_finish (e : ErrKind) (d : Detail) (s : State) (i : Nat) :
    telByte (finish e d s) i = telByte s i := rfl

@[simp] theorem telByte_setOutcome (o : OutcomeKind) (a b : Cause) (s : State) (i : Nat) :
    telByte (setOutcome o a b s) i = telByte s i := rfl

@[simp] theorem telByte_useFault (s : State) (i : Nat) : telByte (useFault s) i = telByte s i := rfl

@[simp] theorem telByte_parseHeader (s : State) (i : Nat) : telByte (parseHeader s) i = telByte s i := rfl

@[simp] theorem telByte_clearRecord (s : State) (i : Nat) : telByte (clearRecord s) i = telByte s i := rfl

@[simp] theorem telByte_storeDerivedIv (s : State) (i : Nat) : telByte (storeDerivedIv s) i = telByte s i :=
  telByte_congr (by simp) (by simp) i

@[simp] theorem telByte_commitPlaintext (pt : List Byte) (s : State) (i : Nat) :
    telByte (commitPlaintext pt s) i = telByte s i := rfl

@[simp] theorem telByte_discardPlaintext (s : State) (i : Nat) : telByte (discardPlaintext s) i = telByte s i := rfl

/-- The bytes of PT_BUF below PT_LEN after CommitPlaintext are the plaintext (R175). -/
theorem map_ptByte_commitPlaintext {pt : List Byte} (h : pt.length < 2 ^ 16) (s : State) :
    (List.range (commitPlaintext pt s).ptLen.toNat).map (ptByte (commitPlaintext pt s)) = pt := by
  apply List.ext_getElem
  · simp only [commitPlaintext_fields, List.length_map, List.length_range, BitVec.toNat_ofNat, Nat.mod_eq_of_lt h]
  · intro i _ hi
    simp [ptByte_commitPlaintext h hi]

/-- The ciphertext is the slice that CT_OFF and CT_LEN describe (R37). -/
theorem ciphertext_eq (s : State) :
    ciphertext s = (List.range s.ctLen.toNat).map fun k => telByte s (s.ctOff.toNat + k) := rfl

/-- The derived IV is MFIELD followed by ten zero bytes (R151). -/
theorem derivedIv_eq (s : State) : derivedIv s =
    #v[s.mField[0], s.mField[1], s.mField[2], s.mField[3], s.mField[4], s.mField[5],
      0, 0, 0, 0, 0, 0, 0, 0, 0, 0] := by
  ext k hk
  simp only [derivedIv, Vector.getElem_ofFn]
  interval_cases k <;> simp [verDevPresent]

end Sys2Proof.Machine
end

