-- ==== Sys2Proof/Laws/Commands.lean ====
section
/-! SUPPORT. Every way a command can complete, one theorem a command, and every way a step can go: later proofs take
these apart and unfold no meaning. -/

namespace Sys2Proof.Machine

/-- PARSE (R120): RANGE, MalformedTelegram, or a new record. -/
theorem parse_cases (s : State) :
    (s.telMax.toNat < s.telLen.toNat ∧ parse s = raiseRequest .range s) ∨
    (s.telLen.toNat ≤ s.telMax.toNat ∧ s.telLen.toNat < 10 ∧ parse s = raiseError .malformedTelegram (clearRecord s)) ∨
    (s.telLen.toNat ≤ s.telMax.toNat ∧ 10 ≤ s.telLen.toNat ∧ parse s = endOk (parseHeader s)) := by
  unfold parse
  split
  · next h => exact .inl ⟨(telTooLong_iff s).1 h, rfl⟩
  · next h =>
    have h := Nat.not_lt.1 fun h' => h ((telTooLong_iff s).2 h')
    split
    · next h' => exact .inr (.inl ⟨h, (telTooShort_iff s).1 h', rfl⟩)
    · next h' => exact .inr (.inr ⟨h, Nat.not_lt.1 fun h'' => h' ((telTooShort_iff s).2 h''), rfl⟩)

/-- DERIVE_IV (R150): NOT_PARSED, or the derived IV. -/
theorem deriveIv_cases (s : State) :
    (s.parsed = false ∧ deriveIv s = raiseRequest .notParsed s) ∨
    (s.parsed = true ∧ deriveIv s = endOk (storeDerivedIv s)) := by
  unfold deriveIv
  split
  · next h => exact .inr ⟨h, rfl⟩
  · next h => exact .inl ⟨Bool.eq_false_iff.2 h, rfl⟩

/-- DECRYPT (R170): NO_KEY, RANGE, a success, or a failure with a cause other than NONE. -/
theorem decrypt_cases (src : IvSrc) (s : State) :
    (s.keyValid = false ∧ decrypt src s = raiseRequest .noKey s) ∨
    (s.keyValid = true ∧ (s.telMax.toNat < s.telLen.toNat ∨ s.telLen.toNat < s.ctOff.toNat + s.ctLen.toNat) ∧
      decrypt src s = raiseRequest .range s) ∨
    (s.keyValid = true ∧ s.telLen.toNat ≤ s.telMax.toNat ∧ s.ctOff.toNat + s.ctLen.toNat ≤ s.telLen.toNat ∧
      decrypt src s = decryptSlice src s) := by
  unfold decrypt
  split
  · next h => exact .inl ⟨by simpa using h, rfl⟩
  · next h =>
    have h : s.keyValid = true := by simpa using h
    split
    · next h' =>
      refine .inr (.inl ⟨h, ?_, rfl⟩)
      rw [Bool.or_eq_true] at h'
      exact h'.imp (telTooLong_iff s).1 (sliceTooLong_iff s).1
    · next h' =>
      rw [Bool.or_eq_true, not_or] at h'
      exact .inr (.inr ⟨h, Nat.not_lt.1 fun k => h'.1 ((telTooLong_iff s).2 k),
        Nat.not_lt.1 fun k => h'.2 ((sliceTooLong_iff s).2 k), rfl⟩)

/-- DECRYPT once its request checks have passed: a success, or a failure with a cause other than NONE (R170, R172). -/
theorem decryptSlice_cases (src : IvSrc) (s : State) :
    (∃ pt, attempt (ciphertext s) (ivOperand src s) s = .ok pt ∧
      decryptSlice src s = endOk (setOutcome (successOutcome src) .none .none
        (commitPlaintext pt (afterAttempt (ciphertext s) s)))) ∨
    (∃ c, c ≠ .none ∧ attempt (ciphertext s) (ivOperand src s) s = .fail c ∧
      decryptSlice src s = raiseError .decryptionFailed (setOutcome .failed c .none
        (discardPlaintext (afterAttempt (ciphertext s) s)))) := by
  unfold decryptSlice
  cases h : attempt (ciphertext s) (ivOperand src s) s with
  | ok pt => exact .inl ⟨pt, rfl, rfl⟩
  | fail c => exact .inr ⟨c, attempt_fail_cause h, rfl, rfl⟩

/-- The two attempts of DECRYPT_TELEGRAM (R234, R235): the first succeeds, the second does, or both fail. -/
theorem twoAttempts_cases (ct : List Byte) (s : State) :
    (∃ pt, attempt ct s.iv s = .ok pt ∧
      twoAttempts ct s = setOutcome .okIvReg .none .none (commitPlaintext pt (afterAttempt ct s))) ∨
    (∃ c1 pt, c1 ≠ .none ∧ attempt ct s.iv s = .fail c1 ∧ attempt ct zeroBlock (afterAttempt ct s) = .ok pt ∧
      twoAttempts ct s =
        setOutcome .okZero c1 .none (commitPlaintext pt (afterAttempt ct (afterAttempt ct s)))) ∨
    (∃ c1 c2, c1 ≠ .none ∧ c2 ≠ .none ∧ attempt ct s.iv s = .fail c1 ∧
      attempt ct zeroBlock (afterAttempt ct s) = .fail c2 ∧
      twoAttempts ct s =
        setOutcome .failed c1 c2 (discardPlaintext (afterAttempt ct (afterAttempt ct s)))) := by
  unfold twoAttempts
  cases h : attempt ct s.iv s with
  | ok pt => exact .inl ⟨pt, rfl, rfl⟩
  | fail c1 =>
    simp only [fallbackAttempt]
    cases h' : attempt ct zeroBlock (afterAttempt ct s) with
    | ok pt => exact .inr (.inl ⟨c1, pt, attempt_fail_cause h, rfl, rfl, rfl⟩)
    | fail c2 => exact .inr (.inr ⟨c1, c2, attempt_fail_cause h, attempt_fail_cause h', rfl, rfl, rfl⟩)

/-- DECRYPT_TELEGRAM (R230): NO_KEY, RANGE, MalformedTelegram, or the parse and the attempts. -/
theorem decryptTelegram_cases (s : State) :
    (s.keyValid = false ∧ decryptTelegram s = raiseRequest .noKey s) ∨
    (s.keyValid = true ∧ s.telMax.toNat < s.telLen.toNat ∧ decryptTelegram s = raiseRequest .range s) ∨
    (s.keyValid = true ∧ s.telLen.toNat ≤ s.telMax.toNat ∧ s.telLen.toNat < 10 ∧
      decryptTelegram s = raiseError .malformedTelegram (clearRecord s)) ∨
    (s.keyValid = true ∧ s.telLen.toNat ≤ s.telMax.toNat ∧ 10 ≤ s.telLen.toNat ∧
      decryptTelegram s = endOk (parseAndDecrypt s)) := by
  unfold decryptTelegram
  split
  · next h => exact .inl ⟨by simpa using h, rfl⟩
  · next h =>
    have h : s.keyValid = true := by simpa using h
    split
    · next h' => exact .inr (.inl ⟨h, (telTooLong_iff s).1 h', rfl⟩)
    · next h' =>
      have h' := Nat.not_lt.1 fun k => h' ((telTooLong_iff s).2 k)
      split
      · next k => exact .inr (.inr (.inl ⟨h, h', (telTooShort_iff s).1 k, rfl⟩))
      · next k => exact .inr (.inr (.inr ⟨h, h', Nat.not_lt.1 fun k' => k ((telTooShort_iff s).2 k'), rfl⟩))

/-- LOAD_KEY (R260): KEY_LOCKED, InvalidKeyLength, or the key is installed. -/
theorem loadKey_cases (s : State) :
    (s.keyValid = true ∧ loadKey s = raiseRequest .keyLocked s) ∨
    (s.keyValid = false ∧ s.keyLen ≠ 16 ∧ loadKey s = raiseError .invalidKeyLength (clearKeyIn s)) ∨
    (s.keyValid = false ∧ s.keyLen = 16 ∧ loadKey s = endOk (clearKeyIn (installKey s))) := by
  unfold loadKey
  split
  · next h => exact .inl ⟨h, rfl⟩
  · next h =>
    have h : s.keyValid = false := Bool.eq_false_iff.2 h
    split
    · next h' => exact .inr (.inl ⟨h, h', rfl⟩)
    · next h' => exact .inr (.inr ⟨h, not_not.1 h', rfl⟩)

/-- Every way a step can go: the host's cycle, or the completion of the pending word as R92 decodes it. -/
theorem step_cases (s : State) :
    (nextAgent s = .host ∧ step s = .next (hostTurn s)) ∨
    (nextAgent s = .engine ∧ s.pending = none ∧ step s = .fault .busyWithoutCommand) ∨
    (∃ w i, nextAgent s = .engine ∧ s.pending = some w ∧ decode w = .instr i ∧ step s = exec i s) ∨
    (∃ w, nextAgent s = .engine ∧ s.pending = some w ∧ decode w = .badOpcode ∧
      step s = .next (raiseRequest .badOpcode s)) ∨
    (∃ w, nextAgent s = .engine ∧ s.pending = some w ∧ decode w = .reservedBits ∧
      step s = .next (raiseRequest .reservedBits s)) := by
  unfold step
  cases ha : nextAgent s with
  | host => exact .inl ⟨rfl, rfl⟩
  | engine =>
    cases hp : s.pending with
    | none => exact .inr (.inl ⟨rfl, rfl, rfl⟩)
    | some w =>
      cases hd : decode w with
      | instr i => exact .inr (.inr (.inl ⟨w, i, rfl, rfl, hd, by simp only [hd]⟩))
      | badOpcode => exact .inr (.inr (.inr (.inl ⟨w, rfl, rfl, hd, by simp only [hd]⟩)))
      | reservedBits => exact .inr (.inr (.inr (.inr ⟨w, rfl, rfl, hd, by simp only [hd]⟩)))

/-- When it is the engine's turn (R329). -/
theorem nextAgent_engine_iff (s : State) :
    nextAgent s = .engine ↔ s.busy = true ∧ s.inReset = false ∧ s.lag = 0 := by
  unfold nextAgent
  split
  · next h => simpa using h
  · next h => simpa using h

/-- A read (R66): a legal one changes nothing but, while BUSY = 1, the counter of the draws; another sets BUSERR. -/
theorem memRead_cases (a : BitVec 12) (n : Width) (s : State) :
    (legal s.telMax.toNat a.toNat (widthBytes n) = true ∧ s.busy = false ∧
      memRead a n s = (⟨false, readData s a.toNat (widthBytes n)⟩, s)) ∨
    (legal s.telMax.toNat a.toNat (widthBytes n) = true ∧ s.busy = true ∧
      memRead a n s = (⟨false, readData s a.toNat (widthBytes n)⟩, useDraw s)) ∨
    (legal s.telMax.toNat a.toNat (widthBytes n) = false ∧ memRead a n s = (⟨true, 0⟩, setBusErr s)) := by
  unfold memRead
  split
  · next h =>
    cases hb : s.busy with
    | true => exact .inr (.inl ⟨h, rfl, rfl⟩)
    | false => exact .inl ⟨h, rfl, rfl⟩
  · next h => exact .inr (.inr ⟨Bool.eq_false_iff.2 h, rfl⟩)

/-- A write (R67): a bus error, a hazard, the issue of a command, or the bytes stored. -/
theorem memWrite_cases (a : BitVec 12) (n : Width) (v : Word) (s : State) :
    (writeRefused s.telMax.toNat a.toNat (widthBytes n) = true ∧ memWrite a n v s = (⟨true, 0⟩, setBusErr s)) ∨
    (writeRefused s.telMax.toNat a.toNat (widthBytes n) = false ∧ s.busy = true ∧
      memWrite a n v s = (⟨false, 0⟩, setHaz s)) ∨
    (writeRefused s.telMax.toNat a.toNat (widthBytes n) = false ∧ s.busy = false ∧ a = 0x000 ∧
      memWrite a n v s = (⟨false, 0⟩, issue v s)) ∨
    (writeRefused s.telMax.toNat a.toNat (widthBytes n) = false ∧ s.busy = false ∧ a ≠ 0x000 ∧
      memWrite a n v s =
        (⟨false, 0⟩, storeBytes a.toNat ((List.range (widthBytes n)).map (byteOf v)) s)) := by
  unfold memWrite
  split
  · next h => exact .inl ⟨h, rfl⟩
  · next h =>
    have h := Bool.eq_false_iff.2 h
    split
    · next hb => exact .inr (.inl ⟨h, hb, rfl⟩)
    · next hb =>
      have hb := Bool.eq_false_iff.2 hb
      split
      · next ha => exact .inr (.inr (.inl ⟨h, hb, ha, rfl⟩))
      · next ha => exact .inr (.inr (.inr ⟨h, hb, ha, rfl⟩))

/-- One read of `wait` (R98): the answer is recorded, and the event stays in the host's list while BUSY reads 1. -/
theorem waitOnce_eq (s : State) : waitOnce s =
    { answer (portRead 0x004 .w32 s).1 (portRead 0x004 .w32 s).2 with
      host := if (portRead 0x004 .w32 s).1.data.getLsbD 0 then .wait :: (portRead 0x004 .w32 s).2.host
        else (portRead 0x004 .w32 s).2.host } := by
  unfold waitOnce
  dsimp only
  split <;> rfl

end Sys2Proof.Machine
end

