-- ==== Sys2Proof/Laws/PerInstr.lean ====
section
/-! SUPPORT. What holds of every command as syntax, one lemma a constructor: its CMD word is one that R93 lists, and
decoding gives the command back. -/

namespace Sys2Proof.Laws.EncodeDecode

/-- The CMD word of a command is well formed (R93) and decodes to that command (R92). -/
def Statement (i : Instr) : Prop := i.wellFormed = true ∧ cmdWellFormed (encode i) = true ∧ decode (encode i) = .instr i

theorem parse : Statement .parse := by unfold Statement; decide

theorem deriveIv : Statement .deriveIv := by unfold Statement; decide

theorem decrypt (ivsrc : IvSrc) : Statement (.decrypt ivsrc) := by cases ivsrc <;> (unfold Statement; decide)

theorem decryptTelegram : Statement .decryptTelegram := by unfold Statement; decide

theorem loadKey : Statement .loadKey := by unfold Statement; decide

end Sys2Proof.Laws.EncodeDecode
end

