-- ==== Sys2Proof/Laws/Port.lean ====
section
/-! SUPPORT. The laws of the host port: its bytes and words (20_memory.md rule R63), and what a write can touch (R67). -/

namespace Sys2Proof.Machine

/-- The four bytes of a word make the word (R63). -/
theorem leBytes_byteOf (w : Word) : leBytes [byteOf w 0, byteOf w 1, byteOf w 2, byteOf w 3] = w := by
  apply BitVec.eq_of_getLsbD_eq
  intro i hi
  simp only [leBytes, byteOf, BitVec.getLsbD_or, BitVec.getLsbD_setWidth, BitVec.getLsbD_shiftLeft,
    BitVec.getLsbD_extractLsb']
  interval_cases i <;> simp

/-- A word read on the port composes as le32 (R63). -/
theorem leBytes_eq_le32 (a b c d : Byte) : leBytes [a, b, c, d] = le32 a b c d := by
  apply BitVec.eq_of_getLsbD_eq
  intro i hi
  simp only [leBytes, le32, BitVec.getLsbD_or, BitVec.getLsbD_setWidth, BitVec.getLsbD_shiftLeft]
  interval_cases i <;> simp

/-- The data of a read, as the value of its bytes in order, whatever the width (R63, R66). -/
theorem leBytes_eq_leValue (n : Width) (b : Nat → Byte) :
    leBytes ((List.range (widthBytes n)).map b) = leValue n b := by
  cases n with
  | w8 => simp [widthBytes, List.range, List.range.loop, leBytes, leValue]
  | w16 =>
    apply BitVec.eq_of_getLsbD_eq
    intro i hi
    simp only [widthBytes, List.range, List.range.loop, List.map, leBytes, leValue, le16, BitVec.getLsbD_or,
      BitVec.getLsbD_setWidth, BitVec.getLsbD_shiftLeft]
    interval_cases i <;> simp
  | w32 => exact leBytes_eq_le32 _ _ _ _

/-- The four bytes of a word stored into a 16-bit register leave its low half (R68). -/
theorem withByte_word16 (x : BitVec 16) (v : Word) :
    withByte (withByte (withByte (withByte x 0 (byteOf v 0)) 1 (byteOf v 1)) 2 (byteOf v 2)) 3 (byteOf v 3) =
      v.setWidth 16 := by
  apply BitVec.eq_of_getLsbD_eq
  intro i hi
  simp only [withByte, byteOf, BitVec.getLsbD_or, BitVec.getLsbD_and, BitVec.getLsbD_not, BitVec.getLsbD_setWidth,
    BitVec.getLsbD_shiftLeft, BitVec.getLsbD_extractLsb']
  interval_cases i <;> simp

/-- The four bytes of a word stored into an 8-bit register leave its low byte (R68). -/
theorem withByte_word8 (x : BitVec 8) (v : Word) :
    withByte (withByte (withByte (withByte x 0 (byteOf v 0)) 1 (byteOf v 1)) 2 (byteOf v 2)) 3 (byteOf v 3) =
      v.setWidth 8 := by
  apply BitVec.eq_of_getLsbD_eq
  intro i hi
  simp only [withByte, byteOf, BitVec.getLsbD_or, BitVec.getLsbD_and, BitVec.getLsbD_not, BitVec.getLsbD_setWidth,
    BitVec.getLsbD_shiftLeft, BitVec.getLsbD_extractLsb']
  interval_cases i <;> simp

/-- Storing a byte touches the registers and buffers that the host may write, and nothing else (R62, R67). -/
theorem storeLoc_frame (l : Loc) (b : Byte) (s : State) : storeLoc l b s = { s with
    telLen := (storeLoc l b s).telLen
    keyLen := (storeLoc l b s).keyLen
    ctOff := (storeLoc l b s).ctOff
    ctLen := (storeLoc l b s).ctLen
    iv := (storeLoc l b s).iv
    keyIn := (storeLoc l b s).keyIn
    telBuf := (storeLoc l b s).telBuf } := by
  cases l with
  | ctl r k => cases r <;> rfl
  | iv i => rfl
  | keyIn i => rfl
  | telBuf i => rfl
  | ptBuf i => rfl

/-- Storing a byte at an offset touches the same things alone. -/
theorem storeAt_frame (o : Nat) (b : Byte) (s : State) : storeAt o b s = { s with
    telLen := (storeAt o b s).telLen
    keyLen := (storeAt o b s).keyLen
    ctOff := (storeAt o b s).ctOff
    ctLen := (storeAt o b s).ctLen
    iv := (storeAt o b s).iv
    keyIn := (storeAt o b s).keyIn
    telBuf := (storeAt o b s).telBuf } := by
  rw [storeAt]
  split
  · exact storeLoc_frame _ _ _
  · rfl

/-- Storing the bytes of a write touches the same things alone. -/
theorem storeBytes_frame (o : Nat) (bs : List Byte) (s : State) : storeBytes o bs s = { s with
    telLen := (storeBytes o bs s).telLen
    keyLen := (storeBytes o bs s).keyLen
    ctOff := (storeBytes o bs s).ctOff
    ctLen := (storeBytes o bs s).ctLen
    iv := (storeBytes o bs s).iv
    keyIn := (storeBytes o bs s).keyIn
    telBuf := (storeBytes o bs s).telBuf } := by
  induction bs generalizing o s with
  | nil => rfl
  | cons b bs ih =>
    rw [storeBytes, ih]
    generalize storeBytes (o + 1) bs (storeAt o b s) = y
    rw [storeAt_frame]

end Sys2Proof.Machine
end

