-- ==== Sys2Proof/Tests/Slice0.lean ====
section
/-! SUPPORT. Tests of the model, and for every obligation with hypotheses a witness: concrete states and operands that
meet them. Expected values come from the worked examples of the spec's rules and from 95_test_vectors.md; each test names
its source. Where a statement has a clause for a value of an ENGINE_FAULT draw, no test can choose the draw (it is a free
value, R8): its clauses cover the four values between them. -/

namespace Sys2Proof.Tests

open Sys2Proof Sys2Proof.Machine

set_option Elab.async false

/-! Helpers. -/

/-- The state a command leaves, or the state itself where it gives none. -/
def after (i : Instr) (s : State) : State :=
  match exec i s with
  | .next t => t
  | .fault _ => s
  | .refused _ => s

/-- The state a step leaves, or the state itself where it gives none. -/
def stepped (s : State) : State :=
  match step s with
  | .next t => t
  | .fault _ => s
  | .refused _ => s

/-- The outcome is a next state. -/
def goesOn : Host.Outcome State Fault Refusal → Bool
  | .next _ => true
  | .fault _ => false
  | .refused _ => false

/-- The source's key K1 (R268). -/
def k1 : Block :=
  #v[0x42, 0x55, 0x79, 0x4d, 0x3d, 0xcc, 0xfd, 0x46, 0x95, 0x31, 0x46, 0xe7, 0x01, 0xb7, 0xdb, 0x68]

/-- The header of the source's scenario (R131). -/
def header1 : List Byte := [0xa1, 0x44, 0xc5, 0x14, 0x27, 0x85, 0x89, 0x50, 0x70]

/-- CT1 of 95_test_vectors.md section 3.6. -/
def ct1 : List Byte :=
  [0xac, 0x31, 0xaf, 0x08, 0xc8, 0xef, 0x07, 0x41, 0xa4, 0xd7, 0xe0, 0x91, 0x7f, 0x39, 0x70, 0xf8]

/-- CT2 of 95_test_vectors.md section 3.6. -/
def ct2 : List Byte :=
  [0xab, 0xdd, 0xe8, 0x3f, 0xa9, 0x03, 0xf1, 0xab, 0x00, 0x30, 0x8e, 0x09, 0xab, 0xd6, 0xb1, 0x68]

/-- The first plaintext block of T-DT1. -/
def pt1 : List Byte :=
  [0x2f, 0x2f, 0x04, 0x13, 0xa4, 0x0b, 0x00, 0x00, 0x0d, 0x3c, 0x00, 0x00, 0x00, 0x00, 0x00, 0x00]

/-- IVD of 95_test_vectors.md section 3.6. -/
def ivd : Block := #v[0xc5, 0x14, 0x27, 0x85, 0x89, 0x50, 0, 0, 0, 0, 0, 0, 0, 0, 0, 0]

/-- The telegram T-DT1 in TEL_BUF, TEL_LEN = 41, no key loaded, TEL_MAX = 256. -/
def noKey : State :=
  { State.reset with telBuf := Memory.ofBytes 0 (header1 ++ ct1 ++ ct2), telLen := 41 }

/-- The same with K1 loaded. -/
def demo : State := { noKey with keyValid := true, key := k1 }

/-- K1 staged for LOAD_KEY (R268). -/
def staged : State := { noKey with keyIn := k1, keyLen := 16 }

/-- `demo` after PARSE. -/
def parsed : State := after .parse demo

/-- The completion of this word is the next step. -/
def completing (w : Word) (s : State) : State := s.withFetchWord 32 w.toNat

/-- `demo` with a command in flight whose completion is three cycles away. -/
def inFlight : State := { completing 0x00000004 demo with lag := 3 }

/-- The OP of a word, as a number (R91). -/
abbrev opNum (w : Word) : Nat := w.toNat % 16

/-- A bit that is reserved for the word's OP is set (R91), by arithmetic. -/
abbrev reservedSet (w : Word) : Prop :=
  w.toNat / 16 % 16 ≠ 0 ∨ w.toNat / 512 ≠ 0 ∨ (w.toNat % 16 ≠ 3 ∧ w.toNat / 256 % 2 = 1)

/-! WellFormed: a word that each row refuses, and the words it accepts (R93). -/

theorem test_wellFormed_accepts :
    cmdWellFormed 0x00000001 = true ∧ cmdWellFormed 0x00000002 = true ∧ cmdWellFormed 0x00000003 = true ∧
    cmdWellFormed 0x00000103 = true ∧ cmdWellFormed 0x00000004 = true ∧ cmdWellFormed 0x00000005 = true := by decide

theorem test_wellFormed_refuses_unassigned_opcode :
    cmdWellFormed 0x00000000 = false ∧ cmdWellFormed 0x00000006 = false ∧ cmdWellFormed 0x0000000F = false := by decide

theorem test_wellFormed_refuses_reserved_bits :
    cmdWellFormed 0x00000011 = false ∧ cmdWellFormed 0x00000203 = false ∧ cmdWellFormed 0x80000003 = false := by decide

theorem test_wellFormed_refuses_ivsrc_of_other_commands :
    cmdWellFormed 0x00000101 = false ∧ cmdWellFormed 0x00000102 = false ∧ cmdWellFormed 0x00000104 = false ∧
    cmdWellFormed 0x00000105 = false := by decide

/-! Decoding: the words of 95_test_vectors.md section 3.2 and the fields of R91 put together bit by bit. -/

theorem test_decode_section_3_2 :
    decode 0x00000000 = .badOpcode ∧ decode 0x00000006 = .badOpcode ∧ decode 0x0000000F = .badOpcode ∧
    decode 0x00000106 = .badOpcode ∧ decode 0x00000011 = .reservedBits ∧ decode 0x00000101 = .reservedBits ∧
    decode 0x00000104 = .reservedBits ∧ decode 0x80000003 = .reservedBits ∧ decode 0x00000203 = .reservedBits := by decide

theorem test_decode_bits_decrypt :
    decode (0#23 ++ 1#1 ++ 0#4 ++ 3#4) = .instr (.decrypt .zeroIv) ∧
    decode (0#23 ++ 0#1 ++ 0#4 ++ 3#4) = .instr (.decrypt .ivReg) := by decide

theorem test_decode_bits_parse : decode (0#23 ++ 0#1 ++ 0#4 ++ 1#4) = .instr .parse := by decide

theorem test_decode_bits_deriveIv : decode (0#23 ++ 0#1 ++ 0#4 ++ 2#4) = .instr .deriveIv := by decide

theorem test_decode_bits_decryptTelegram : decode (0#23 ++ 0#1 ++ 0#4 ++ 4#4) = .instr .decryptTelegram := by decide

theorem test_decode_bits_loadKey : decode (0#23 ++ 0#1 ++ 0#4 ++ 5#4) = .instr .loadKey := by decide

theorem test_decodeTableWord :
    decodeTableWord 32 1 = some .parse ∧ decodeTableWord 32 0x103 = some (.decrypt .zeroIv) ∧
    decodeTableWord 32 6 = none := by decide

/-! PARSE. -/

/-- T-PA1, with the register words of its row. -/
theorem test_parse_T_PA1 :
    statusWord parsed = 0x00000006 ∧ hdrWord parsed = 0x007044a1 ∧ mfieldLoWord parsed = 0x852714c5 ∧
    mfieldHiWord parsed = 0x00005089 ∧ mcode parsed = 0x14c5 ∧ serial parsed = 0x50898527 ∧ parsed.ctOff = 9 ∧
    parsed.ctLen = 32 := by decide +kernel

/-- T-PA3 and T-PA6 from reset, by their STATUS. -/
theorem test_parse_T_PA3_T_PA6 :
    statusWord (after .parse { noKey with telLen := 9 }) = 0x00000100 ∧
    statusWord (after .parse { noKey with telLen := 257 }) = 0x00006500 := by decide +kernel

/-! DERIVE_IV. -/

/-- T-IV1 (and T-IV6: the host's IV is replaced). -/
theorem test_deriveIv_T_IV1 :
    (after .deriveIv { parsed with iv := Vector.replicate 16 0x11 }).iv = ivd := by decide +kernel

/-- T-IV2. -/
theorem test_deriveIv_T_IV2 : statusWord (after .deriveIv State.reset) = 0x00005500 := by decide +kernel

/-! DECRYPT. -/

/-- T-DE8: a length that is no multiple of 16. -/
theorem test_decrypt_T_DE8 :
    statusWord (after (.decrypt .ivReg) { parsed with ctLen := 17 }) = 0x03010406 := by decide +kernel

/-- T-DE10 and T-DE11: the sum of offset and length does not wrap. -/
theorem test_decrypt_T_DE10_T_DE11 :
    statusWord (after (.decrypt .ivReg) { parsed with ctOff := 25, ctLen := 17 }) = 0x00006506 ∧
    statusWord (after (.decrypt .zeroIv) { parsed with ctOff := 0xFFFF, ctLen := 2 }) = 0x00006506 := by decide +kernel

/-! DECRYPT_TELEGRAM. -/

/-- T-DT6 and T-DT7. -/
theorem test_decryptTelegram_T_DT6_T_DT7 :
    statusWord (after .decryptTelegram { demo with telLen := 40 }) = 0x03110006 ∧
    statusWord (after .decryptTelegram { demo with telLen := 10 }) = 0x03110006 := by decide +kernel

/-- T-DT8 and T-DT10. -/
theorem test_decryptTelegram_T_DT8_T_DT10 :
    statusWord (after .decryptTelegram { demo with telLen := 9 }) = 0x00000102 ∧
    statusWord (after .decryptTelegram noKey) = 0x00003500 := by decide +kernel

/-! LOAD_KEY. -/

/-- T-LK1. -/
theorem test_loadKey_T_LK1 :
    (after .loadKey staged).key = k1 ∧ (after .loadKey staged).keyIn = zeroBlock ∧
    statusWord (after .loadKey staged) = 0x00000002 := by decide +kernel

/-- T-LK2 and T-LK4. -/
theorem test_loadKey_T_LK2_T_LK4 :
    statusWord (after .loadKey { staged with keyLen := 15 }) = 0x00000300 ∧
    (after .loadKey { staged with keyLen := 15 }).keyIn = zeroBlock ∧
    statusWord (after .loadKey { demo with keyIn := ivd }) = 0x00004502 ∧
    (after .loadKey { demo with keyIn := ivd }).keyIn = ivd := by decide +kernel

/-! AES-128. -/

/-- The spot values of A3. -/
theorem test_aes_A3 :
    Aes.gmul 0x57 0x83 = 0xc1 ∧ Aes.gmul 0x57 0x13 = 0xfe ∧ Aes.xtime 0x57 = 0xae ∧ Aes.xtime 0xae = 0x47 ∧
    Aes.sbox 0x00 = 0x63 ∧ Aes.sbox 0x53 = 0xed ∧ Aes.invSbox 0xed = 0x53 ∧ Aes.invSbox 0x63 = 0x00 := by decide +kernel

/-- Round keys 1 and 10 of the key of A1. -/
theorem test_aes_key_schedule_A1 :
    let w := Aes.keyExpansion #v[0, 1, 2, 3, 4, 5, 6, 7, 8, 9, 10, 11, 12, 13, 14, 15]
    Aes.roundKey w 1 = #v[0xd6, 0xaa, 0x74, 0xfd, 0xd2, 0xaf, 0x72, 0xfa, 0xda, 0xa6, 0x78, 0xf1, 0xd6, 0xab, 0x76, 0xfe] ∧
    Aes.roundKey w 10 =
      #v[0x13, 0x11, 0x1d, 0x7f, 0xe3, 0x94, 0x4a, 0x17, 0xf3, 0x07, 0xa7, 0x8b, 0x4d, 0x2b, 0x30, 0xc5] := by
  decide +kernel

/-- A1: the inverse cipher of FIPS-197 Appendix C.1. -/
theorem test_aes_A1 :
    Aes.invCipher
        #v[0x69, 0xc4, 0xe0, 0xd8, 0x6a, 0x7b, 0x04, 0x30, 0xd8, 0xcd, 0xb7, 0x80, 0x70, 0xb4, 0xc5, 0x5a]
        #v[0, 1, 2, 3, 4, 5, 6, 7, 8, 9, 10, 11, 12, 13, 14, 15] =
      #v[0x00, 0x11, 0x22, 0x33, 0x44, 0x55, 0x66, 0x77, 0x88, 0x99, 0xaa, 0xbb, 0xcc, 0xdd, 0xee, 0xff] := by
  decide +kernel

/-- R242: the first block of the telegram T-DT1 under K1 and the derived IV. -/
theorem test_aes_R242 : Aes.cbcDecrypt ct1 k1 ivd = pt1 := by decide +kernel

/-! The host port: 95_test_vectors.md section 3.3, from reset. -/

/-- Reads: CMD, PARAM, STATUS, and the reads that are bus errors. -/
theorem test_port_reads :
    (memRead 0x000 .w32 State.reset).1 = ⟨false, 0⟩ ∧ (memRead 0x034 .w32 State.reset).1 = ⟨false, 0x00000100⟩ ∧
    (memRead 0x004 .w32 State.reset).1 = ⟨false, 0⟩ ∧ (memRead 0x004 .w16 State.reset).1 = ⟨true, 0⟩ ∧
    (memRead 0x006 .w32 State.reset).1 = ⟨true, 0⟩ ∧ (memRead 0x038 .w32 State.reset).1 = ⟨true, 0⟩ ∧
    (memRead 0x060 .w8 State.reset).1 = ⟨true, 0⟩ := by decide +kernel

/-- Writes: the defined bits of a register, IV bytes, KEY_IN. -/
theorem test_port_register_writes :
    (memWrite 0x008 .w32 0xFFFF0029 State.reset).2.telLen = 0x0029 ∧
    (memWrite 0x00C .w32 0x110 State.reset).2.keyLen = 0x10 ∧
    (memRead 0x040 .w32 (memWrite 0x043 .w8 0xAB State.reset).2).1 = ⟨false, 0xAB000000⟩ ∧
    (memRead 0x050 .w32 (memWrite 0x050 .w32 0x4d795542 State.reset).2).1 = ⟨false, 0⟩ ∧
    (memWrite 0x050 .w32 0x4d795542 State.reset).2.keyIn[3] = 0x4d := by decide +kernel

/-- Writes of TEL_BUF and the bus errors of writes. -/
theorem test_port_buffer_writes :
    (memRead 0x402 .w8 (memWrite 0x402 .w16 0x14c5 State.reset).2).1 = ⟨false, 0xc5⟩ ∧
    (memRead 0x403 .w8 (memWrite 0x402 .w16 0x14c5 State.reset).2).1 = ⟨false, 0x14⟩ ∧
    (memWrite 0x401 .w16 0 State.reset).1.busError = true ∧ (memWrite 0x502 .w32 0 State.reset).1.busError = true ∧
    (memWrite 0x4FC .w32 0 State.reset).1.busError = false ∧ (memWrite 0x500 .w8 0 State.reset).1.busError = true ∧
    (memWrite 0x800 .w8 1 State.reset).1.busError = true ∧ (memWrite 0x004 .w32 0 State.reset).1.busError = true ∧
    (memWrite 0x018 .w32 5 State.reset).2.busErr = true := by decide +kernel

/-- R49: a stored plaintext byte is read while PT_VALID = 1 and below PT_LEN alone; after PARSE it is unspecified. -/
theorem test_port_plaintext :
    let s : State := { demo with ptBuf := Memory.ofBytes 0 pt1, ptLen := 16, ptValid := true, outcome := 1 }
    (memRead 0x802 .w8 s).1 = ⟨false, 0x04⟩ ∧ (after .parse s).ptBuf = s.ptBuf ∧
    ptByte (after .parse s) 2 = Config.freeByte s.ptDraw 0x802 ∧ ptByte s 16 = Config.freeByte s.ptDraw 0x810 := by
  refine ⟨by decide +kernel, rfl, rfl, rfl⟩

/-! The step. -/

/-- P5: PARSE of an empty telegram is issued by the first step and, its latency being what it may, waits or completes;
the CMD write itself answers without a bus error. -/
theorem test_step_issues :
    (stepped (withProgram (cmdProgram 0x00000001) State.reset)).busy = true ∧
    (stepped (withProgram (cmdProgram 0x00000001) State.reset)).pending = some 0x00000001 ∧
    (stepped (withProgram (cmdProgram 0x00000001) State.reset)).responses = [⟨false, 0⟩] := by decide +kernel

/-- P4: the words 0x00000000, 0x00000011 and 0x00000106, by STATUS after their completion. -/
theorem test_step_illegal_words :
    statusWord (stepped (completing 0x00000000 State.reset)) = 0x00001500 ∧
    statusWord (stepped (completing 0x00000011 State.reset)) = 0x00002500 ∧
    statusWord (stepped (completing 0x00000106 State.reset)) = 0x00001500 := by decide +kernel

/-- P5, run A: a write while a command is in flight is dropped and sets HAZ; the completion then sees TEL_LEN = 0. -/
theorem test_step_run_A :
    statusWord (stepped (stepped { completing 0x00000001 State.reset with
      lag := 1, host := [.write 0x008 .w32 41] })) = 0x00000110 := by decide +kernel

/-- P5, run B: the completion comes first, and the write is accepted. -/
theorem test_step_run_B :
    (stepped (stepped { completing 0x00000001 State.reset with host := [.write 0x008 .w32 41] })).telLen = 0x29 ∧
    statusWord (stepped (stepped { completing 0x00000001 State.reset with host := [.write 0x008 .w32 41] })) =
      0x00000100 := by decide +kernel

/-- T-RS2 and T-RS3. -/
theorem test_step_reset :
    statusWord (stepped { inFlight with haz := true, busErr := true, host := [.assertReset] }) = 0x00000000 ∧
    (stepped (withProgram [.assertReset] inFlight)).key = zeroBlock := by decide +kernel

/-! Witnesses. -/

theorem test_witness_OnlyTheTablesWordsNameCommands :
    decode 0x00000103 = .instr (.decrypt .zeroIv) ∧ cmdWellFormed 0x00000103 = true := by decide

/-- OP at 0, 6 and 15; a reserved bit at OP 1, 3 and 5; legal words at OP 1 to 5. -/
theorem test_witness_DecodeTestsOpcodeThenReservedBits :
    (opNum 0x00000000 = 0 ∧ 6 ≤ opNum 0x00000006 ∧ 6 ≤ opNum 0x0000010F) ∧
    (1 ≤ opNum 0x00000011 ∧ opNum 0x00000011 ≤ 5 ∧ reservedSet 0x00000011) ∧
    (1 ≤ opNum 0x00000203 ∧ opNum 0x00000203 ≤ 5 ∧ reservedSet 0x00000203) ∧
    (1 ≤ opNum 0x00000105 ∧ opNum 0x00000105 ≤ 5 ∧ reservedSet 0x00000105) ∧
    (¬ reservedSet 0x00000001 ∧ ¬ reservedSet 0x00000003 ∧ ¬ reservedSet 0x00000103 ∧ ¬ reservedSet 0x00000005) := by
  decide

theorem test_witness_IllegalWordsEndInRequestErrors :
    (completing 0x00000000 demo).Completes 0x00000000 ∧ (completing 0x0000000F demo).Completes 0x0000000F ∧
    (completing 0x00000006 demo).Completes 0x00000006 ∧
    ((completing 0x00000101 demo).Completes 0x00000101 ∧ reservedSet 0x00000101) ∧
    ((completing 0x00000105 demo).Completes 0x00000105 ∧ reservedSet 0x00000105) := by decide +kernel

theorem test_witness_StepRunsTheDecodedCommand :
    (completing 0x00000003 demo).Completes 0x00000003 ∧ decode 0x00000003 = .instr (.decrypt .ivReg) := by
  decide +kernel

theorem test_witness_CompletionEndsTheCommand : (completing 0x00000004 demo).Completes 0x00000004 := by decide +kernel

theorem test_witness_CommandsWriteOnlyTheirOperands : ∀ i : Instr, ∃ t, exec i demo = .next t := by
  intro i
  cases i <;> exact ⟨_, rfl⟩

theorem test_witness_RequestErrorsChangeNothingElse :
    exec .loadKey demo = .next (after .loadKey demo) ∧ (after .loadKey demo).err = 5 ∧
    (after .parse { demo with telLen := 257 }).err = 5 ∧ (after .deriveIv demo).err = 5 ∧
    (after (.decrypt .ivReg) noKey).err = 5 ∧ (after .decryptTelegram noKey).err = 5 ∧
    ((completing 0x00000006 demo).Completes 0x00000006 ∧ (stepped (completing 0x00000006 demo)).err = 5) := by
  refine ⟨rfl, ?_⟩
  decide +kernel

/-- A state for each branch of the chain. -/
theorem test_witness_ErrorsAreReportedInPriorityOrder :
    (completing 0x00000010 demo).Completes 0x00000010 ∧ reservedSet 0x00000203 ∧
    ((completing 0x00000003 noKey).Completes 0x00000003 ∧ (completing 0x00000003 noKey).keyValid = false) ∧
    ((completing 0x00000005 demo).Completes 0x00000005 ∧ (completing 0x00000005 demo).keyValid = true) ∧
    ((completing 0x00000002 demo).Completes 0x00000002 ∧ (completing 0x00000002 demo).parsed = false) ∧
    (completing 0x00000001 { demo with telLen := 257 }).telMax.toNat <
      (completing 0x00000001 { demo with telLen := 257 }).telLen.toNat ∧
    (completing 0x00000003 { demo with ctOff := 41, ctLen := 1 }).telLen.toNat < 41 + 1 ∧
    (completing 0x00000004 { demo with telLen := 9 }).telLen.toNat < 10 ∧
    ((completing 0x00000005 noKey).keyLen ≠ 16 ∧ (completing 0x00000005 noKey).keyValid = false) ∧
    (completing 0x00000001 demo).Completes 0x00000001 := by decide +kernel

/-- The least and the greatest length. -/
theorem test_witness_ParseCopiesTheHeader :
    (10 ≤ ({ demo with telLen := 10 } : State).telLen.toNat ∧
      ({ demo with telLen := 10 } : State).telLen.toNat ≤ demo.telMax.toNat) ∧
    (10 ≤ ({ demo with telLen := 256 } : State).telLen.toNat ∧
      ({ demo with telLen := 256 } : State).telLen.toNat ≤ demo.telMax.toNat) := by decide +kernel

theorem test_witness_ParseRefusesBadLengths :
    demo.telMax.toNat < ({ demo with telLen := 257 } : State).telLen.toNat ∧
    (({ demo with telLen := 9 } : State).telLen.toNat ≤ demo.telMax.toNat ∧
      ({ demo with telLen := 9 } : State).telLen.toNat < 10) ∧
    ({ demo with telLen := 0 } : State).telLen.toNat < 10 := by decide +kernel

/-- Two states that agree in the header alone. -/
theorem test_witness_ParseIsAPureFunctionOfTheHeader :
    exec .parse demo = .next parsed ∧
    exec .parse { staged with telBuf := Memory.ofBytes 0 (header1 ++ ct2) } =
      .next (after .parse { staged with telBuf := Memory.ofBytes 0 (header1 ++ ct2) }) ∧
    (demo.telLen = staged.telLen ∧ demo.telMax = staged.telMax ∧ demo.telLen.toNat ≤ demo.telMax.toNat ∧
      ∀ k < 9, telByte demo k = telByte { staged with telBuf := Memory.ofBytes 0 (header1 ++ ct2) } k) := by
  refine ⟨rfl, rfl, ?_⟩
  decide +kernel

theorem test_witness_ViewsAfterParse : 10 ≤ demo.telLen.toNat ∧ demo.telLen.toNat ≤ demo.telMax.toNat := by
  decide +kernel

theorem test_witness_DeriveIvWritesMfieldAndZeros : parsed.parsed = true ∧ demo.parsed = false := by decide +kernel

theorem test_witness_SameManufacturerFieldSameIv :
    parsed.parsed = true ∧ (after .parse staged).parsed = true ∧ parsed.mField = (after .parse staged).mField ∧
    goesOn (exec .deriveIv parsed) = true ∧ goesOn (exec .deriveIv (after .parse staged)) = true := by decide +kernel

theorem test_witness_DecryptChecksKeyThenRange :
    noKey.keyValid = false ∧
    (demo.keyValid = true ∧ demo.telMax.toNat < ({ demo with telLen := 257 } : State).telLen.toNat) ∧
    parsed.telLen.toNat < ({ parsed with ctOff := 25, ctLen := 17 } : State).ctOff.toNat + (17#16).toNat ∧
    parsed.telLen.toNat < ({ parsed with ctOff := 0xFFFF, ctLen := 2 } : State).ctOff.toNat + (2#16).toNat := by
  decide +kernel

/-- Lengths 0, 15 and 17. -/
theorem test_witness_DecryptOfABadLengthFails :
    parsed.keyValid = true ∧ parsed.telLen.toNat ≤ parsed.telMax.toNat ∧
    (parsed.ctOff.toNat + (0#16).toNat ≤ parsed.telLen.toNat ∧
      parsed.ctOff.toNat + (15#16).toNat ≤ parsed.telLen.toNat ∧ (15#16).toNat % 16 ≠ 0) ∧
    (parsed.ctOff.toNat + (17#16).toNat ≤ parsed.telLen.toNat ∧ (17#16).toNat % 16 ≠ 0) := by decide +kernel

/-- One block, and two blocks that end at TEL_LEN. -/
theorem test_witness_DecryptOfWholeBlocks :
    (parsed.keyValid = true ∧ parsed.telLen.toNat ≤ parsed.telMax.toNat ∧
      parsed.ctOff.toNat + parsed.ctLen.toNat ≤ parsed.telLen.toNat ∧ parsed.ctLen ≠ 0 ∧
      parsed.ctLen.toNat % 16 = 0) ∧
    (parsed.ctOff.toNat + (16#16).toNat ≤ parsed.telLen.toNat ∧ (16#16).toNat % 16 = 0) := by decide +kernel

theorem test_witness_SuccessDoesNotDependOnKeyOrIv :
    (∃ t, exec (.decrypt .ivReg) parsed = .next t) ∧
    (∃ u, exec (.decrypt .ivReg) { parsed with key := zeroBlock, iv := ivd } = .next u) := ⟨⟨_, rfl⟩, ⟨_, rfl⟩⟩

/-- A byte and its inverse under gmul for a ≠ 0; the byte 0 is the other case. -/
theorem test_witness_SboxMeetsItsDefinition : Aes.gmul 0x01 0x01 = 0x01 ∧ Aes.gmul 0x53 0xca = 0x01 := by decide +kernel

theorem test_witness_CbcBlocksChain :
    (ct1.length = 16 * 1 ∧ 1 ≤ 1) ∧ (ct1 ++ ct2).length = 16 * 2 := by decide +kernel

/-- The first block of T-DT1, which was made by encrypting `pt1` under K1 and IVD (R242). -/
theorem test_witness_DecryptInvertsCbcEncryption :
    let s : State := { parsed with ctLen := 16, iv := ivd }
    (s.keyValid = true ∧ s.telLen.toNat ≤ s.telMax.toNat ∧ s.ctOff.toNat + s.ctLen.toNat ≤ s.telLen.toNat) ∧
    (pt1 ≠ [] ∧ pt1.length % 16 = 0) ∧
    (List.range s.ctLen.toNat).map (fun k => telByte s (s.ctOff.toNat + k)) = Aes.cbcEncrypt pt1 s.key s.iv := by
  decide +kernel

theorem test_witness_TelegramChecksKeyThenRangeThenLength :
    noKey.keyValid = false ∧
    (demo.keyValid = true ∧ demo.telMax.toNat < ({ demo with telLen := 257 } : State).telLen.toNat) ∧
    ({ demo with telLen := 9 } : State).telLen.toNat < 10 := by decide +kernel

/-- Payloads of 1, 15 and 16 bytes. -/
theorem test_witness_TelegramMakesAtMostTwoAttempts :
    demo.keyValid = true ∧ (10 ≤ demo.telLen.toNat ∧ demo.telLen.toNat ≤ demo.telMax.toNat) ∧
    ((10#16).toNat - 9) % 16 ≠ 0 ∧ ((24#16).toNat - 9) % 16 ≠ 0 ∧ ((25#16).toNat - 9) % 16 = 0 := by decide +kernel

theorem test_witness_FallbackSucceedsOnlyAfterAnEngineFault :
    demo.keyValid = true ∧ 10 ≤ demo.telLen.toNat ∧ demo.telLen.toNat ≤ demo.telMax.toNat := by decide +kernel

/-- A telegram whose payload has no acceptable length takes all four steps. -/
theorem test_witness_StepByStepAgreesWithDecryptTelegram :
    let s : State := { demo with telLen := 24 }
    ∃ s1 s2 s3 s4 t, (s.keyValid = true ∧ s.telLen.toNat ≤ s.telMax.toNat) ∧ exec .parse s = .next s1 ∧
      exec .deriveIv s1 = .next s2 ∧ exec (.decrypt .ivReg) s2 = .next s3 ∧
      (if s3.err = 4 then exec (.decrypt .zeroIv) s3 = .next s4 else s4 = s3) ∧ exec .decryptTelegram s = .next t := by
  refine ⟨_, _, _, after (.decrypt .zeroIv) (after (.decrypt .ivReg) (after .deriveIv (after .parse
    { demo with telLen := 24 }))), _, ?_, rfl, rfl, rfl, ?_, rfl⟩
  · decide +kernel
  · rw [if_pos]
    · rfl
    · decide +kernel

/-- A TEL_BUF with other bytes above TEL_LEN. -/
theorem test_witness_CommandsReadOnlyTheTelegram :
    (∀ k < demo.telLen.toNat,
      telByte { demo with telBuf := Memory.ofBytes 0 (header1 ++ ct1 ++ ct2 ++ pt1), telDraw := 7 } k = telByte demo k) ∧
    goesOn (exec .parse demo) = true := by decide +kernel

theorem test_witness_LoadKeyInstallsOrRefuses :
    (staged.keyValid = false ∧ staged.keyLen = 16) ∧ ({ staged with keyLen := 15 } : State).keyLen ≠ 16 ∧
    ({ staged with keyLen := 17 } : State).keyLen ≠ 16 ∧ demo.keyValid = true := by decide +kernel

/-- TEL_MAX at its bound, and the last access of each region beside the first past it. -/
theorem test_witness_LegalAccessesAreThoseOfTheMap :
    demo.telMax.toNat ≤ 0x400 ∧ (State.resetWith 1024).telMax.toNat ≤ 0x400 ∧
    (legal 256 0x034 4 = true ∧ legal 256 0x038 4 = false ∧ legal 256 0x034 2 = false) ∧
    (legal 256 0x04F 1 = true ∧ legal 256 0x05C 4 = true ∧ legal 256 0x060 1 = false) ∧
    (legal 256 0x4FC 4 = true ∧ legal 250 0x4F8 4 = false ∧ legal 1024 0x7FF 1 = true) ∧
    (legal 256 0x8FF 1 = true ∧ legal 256 0x900 1 = false ∧ legal 1024 0xC00 1 = false) := by decide +kernel

theorem test_witness_BusErrorsSetOnlyBuserr :
    legal demo.telMax.toNat (0x006#12).toNat (widthBytes .w32) = false ∧
    (0x018 ≤ (0x018#12).toNat ∧ (0x034#12).toNat ≤ 0x034) ∧ 0x800 ≤ (0x800#12).toNat := by decide +kernel

theorem test_witness_ReadsHaveNoSideEffects : memRead 0x004 .w32 demo = (⟨false, 0x00000002⟩, demo) := by decide +kernel

/-- BUSY = 0, for `StatusWordLayout`, `ControlRegisterWords` and `LengthRegisterWrites`. -/
theorem test_witness_idle : demo.busy = false ∧ parsed.busy = false ∧ State.reset.busy = false := by decide +kernel

/-- For each width the last place of a buffer and of IV. -/
theorem test_witness_WordReadsAreLittleEndian :
    (demo.busy = false ∧ demo.telMax.toNat ≤ 0x400) ∧
    (255 % widthBytes .w8 = 0 ∧ 255 + widthBytes .w8 ≤ demo.telMax.toNat ∧ 15 % widthBytes .w8 = 0 ∧
      15 + widthBytes .w8 ≤ 16) ∧
    (254 % widthBytes .w16 = 0 ∧ 254 + widthBytes .w16 ≤ demo.telMax.toNat ∧ 14 % widthBytes .w16 = 0 ∧
      14 + widthBytes .w16 ≤ 16) ∧
    (252 % widthBytes .w32 = 0 ∧ 252 + widthBytes .w32 ≤ demo.telMax.toNat ∧ 12 % widthBytes .w32 = 0 ∧
      12 + widthBytes .w32 ≤ 16) := by decide +kernel

theorem test_witness_WriteOnlyLocationsReadZero :
    legal demo.telMax.toNat (0x000#12).toNat (widthBytes .w32) = true ∧
    legal demo.telMax.toNat (0x050#12).toNat (widthBytes .w32) = true ∧
    legal demo.telMax.toNat (0x05F#12).toNat (widthBytes .w8) = true := by decide +kernel

/-- The last place of each width. -/
theorem test_witness_TelegramBufferWrites :
    (demo.busy = false ∧ demo.telMax.toNat ≤ 0x400) ∧
    (255 % widthBytes .w8 = 0 ∧ 255 + widthBytes .w8 ≤ demo.telMax.toNat) ∧
    (254 % widthBytes .w16 = 0 ∧ 254 + widthBytes .w16 ≤ demo.telMax.toNat) ∧
    (252 % widthBytes .w32 = 0 ∧ 252 + widthBytes .w32 ≤ demo.telMax.toNat) := by decide +kernel

theorem test_witness_IvAndKeyInWrites :
    demo.busy = false ∧ (15 % widthBytes .w8 = 0 ∧ 15 + widthBytes .w8 ≤ 16) ∧
    (14 % widthBytes .w16 = 0 ∧ 14 + widthBytes .w16 ≤ 16) ∧
    (12 % widthBytes .w32 = 0 ∧ 12 + widthBytes .w32 ≤ 16) := by decide +kernel

theorem test_witness_CmdWriteIssuesTheCommand :
    let s := withProgram (cmdProgram 0x00000001) demo
    s.busy = false ∧ s.inReset = false ∧ s.host = [.write 0x000 .w32 0x00000001] := by decide +kernel

/-- CMD, TEL_LEN, IV, KEY_IN and TEL_BUF. -/
theorem test_witness_WriteWhileBusyIsDropped :
    inFlight.busy = true ∧ writeRefused inFlight.telMax.toNat (0x000#12).toNat (widthBytes .w32) = false ∧
    writeRefused inFlight.telMax.toNat (0x008#12).toNat (widthBytes .w32) = false ∧
    writeRefused inFlight.telMax.toNat (0x04F#12).toNat (widthBytes .w8) = false ∧
    writeRefused inFlight.telMax.toNat (0x05E#12).toNat (widthBytes .w16) = false ∧
    writeRefused inFlight.telMax.toNat (0x4FF#12).toNat (widthBytes .w8) = false := by decide +kernel

theorem test_witness_ExactReadsWhileBusy :
    inFlight.busy = true ∧ inFlight.telMax.toNat ≤ 0x400 ∧
    (15 + widthBytes .w8 ≤ 16 ∧ 14 + widthBytes .w16 ≤ 16 ∧ 12 + widthBytes .w32 ≤ 16) ∧
    (255 + widthBytes .w8 ≤ inFlight.telMax.toNat ∧ 254 % widthBytes .w16 = 0 ∧
      254 + widthBytes .w16 ≤ inFlight.telMax.toNat ∧ 252 % widthBytes .w32 = 0 ∧
      252 + widthBytes .w32 ≤ inFlight.telMax.toNat) := by decide +kernel

/-- An idle block, and one with a command in flight. -/
theorem test_witness_ResetClearsEverything :
    nextAgent (withProgram [.assertReset] demo) = .host ∧ nextAgent (withProgram [.assertReset] inFlight) = .host := by
  decide +kernel

theorem test_witness_AccessesInResetHaveNoEffect :
    (assertReset (withProgram [.read 0x400 .w8] demo)).inReset = true ∧
    (assertReset (withProgram [.read 0x400 .w8] demo)).host = [.read 0x400 .w8] ∧
    (assertReset (withProgram [.write 0x400 .w8 1] demo)).host = [.write 0x400 .w8 1] ∧
    (assertReset (withProgram [.wait] demo)).host = [.wait] := by decide +kernel

theorem test_witness_ReleaseOpensThePort :
    nextAgent (assertReset (withProgram [.releaseReset] inFlight)) = .host ∧
    (assertReset (withProgram [.releaseReset] inFlight)).host = [.releaseReset] := by decide +kernel

/-- A read, a write and a wait, of an idle block or while a command is in flight. -/
theorem test_witness_HostAccessesHappenInProgramOrder :
    (nextAgent (withProgram [.read 0x004 .w32] demo) = .host ∧ (withProgram [.read 0x004 .w32] demo).inReset = false ∧
      (withProgram [.read 0x004 .w32] demo).host = [.read 0x004 .w32]) ∧
    (nextAgent (withProgram [.write 0x008 .w32 1] inFlight) = .host ∧
      (withProgram [.write 0x008 .w32 1] inFlight).inReset = false) ∧
    (nextAgent (withProgram [.wait] inFlight) = .host ∧ (withProgram [.wait] inFlight).host = [.wait]) ∧
    (nextAgent (withProgram [.wait] demo) = .host ∧ (withProgram [.wait] demo).busy = false) := by decide +kernel

theorem test_witness_ResetMeetsTheInvariant :
    (Config.telMaxLeast ≤ (10#16).toNat ∧ (10#16).toNat ≤ Config.telMaxGreatest) ∧
    (Config.telMaxLeast ≤ (1024#16).toNat ∧ (1024#16).toNat ≤ Config.telMaxGreatest) := by decide +kernel

/-- A completion. -/
theorem test_witness_StepKeepsTheInvariant_engine :
    (completing 0x00000001 demo).Inv ∧ goesOn (step (completing 0x00000001 demo)) = true := by
  constructor <;> decide +kernel

/-- A host write. -/
theorem test_witness_StepKeepsTheInvariant_host :
    (withProgram [.write 0x404 .w32 1] demo).Inv ∧ goesOn (step (withProgram [.write 0x404 .w32 1] demo)) = true := by
  constructor <;> decide +kernel

/-- A reset with a command in flight. -/
theorem test_witness_StepKeepsTheInvariant_reset :
    (withProgram [.assertReset] inFlight).Inv ∧ goesOn (step (withProgram [.assertReset] inFlight)) = true := by
  constructor <;> decide +kernel

theorem test_witness_NoStepStops :
    demo.busy = demo.pending.isSome ∧ inFlight.busy = inFlight.pending.isSome := by decide +kernel

/-- BUSY set by the host, cleared by the completion, cleared by reset. -/
theorem test_witness_BusyFollowsIssueAndCompletion :
    (goesOn (step (withProgram (cmdProgram 0x00000001) demo)) = true ∧ demo.busy = false ∧
      (stepped (withProgram (cmdProgram 0x00000001) demo)).busy = true) ∧
    ((completing 0x00000001 demo).busy = true ∧ (stepped (completing 0x00000001 demo)).busy = false) ∧
    (inFlight.busy = true ∧ (stepped (withProgram [.assertReset] inFlight)).busy = false) := by decide +kernel

theorem test_witness_KeyIsImmutableUntilReset :
    (demo.keyValid = true ∧ goesOn (step (completing 0x00000005 demo)) = true) ∧
    (staged.keyValid = false ∧ (stepped (completing 0x00000005 staged)).keyValid = true) := by decide +kernel

theorem test_witness_FaultBitsAreSticky :
    goesOn (step (withProgram [.write 0x008 .w32 1] inFlight)) = true ∧ inFlight.haz = false ∧
    (stepped (withProgram [.write 0x008 .w32 1] inFlight)).haz = true ∧
    (stepped { demo with haz := true, busErr := true }).haz = true := by decide +kernel

/-- A read of KEY_IN, and the completion of a LOAD_KEY. -/
theorem test_witness_NoAnswerDependsOnTheKey :
    goesOn (step (withProgram [.read 0x050 .w32] staged)) = true ∧
    goesOn (step { staged with key := ivd, keyIn := ivd, host := [.read 0x050 .w32] }) = true ∧
    goesOn (step (completing 0x00000005 staged)) = true := by decide +kernel

/-- A read of PT_BUF where a plaintext was stored before, a completion that fails, and a PARSE. -/
theorem test_witness_StalePlaintextIsNeverSeen :
    demo.ptValid = false ∧ goesOn (step (withProgram [.read 0x800 .w32] demo)) = true ∧
    goesOn (step { demo with ptBuf := Memory.ofBytes 0 pt1, host := [.read 0x800 .w32] }) = true ∧
    goesOn (step (completing 0x00000004 { demo with telLen := 24, ptBuf := Memory.ofBytes 0 pt1 })) = true ∧
    goesOn (step (completing 0x00000001 { demo with ptBuf := Memory.ofBytes 0 pt1 })) = true := by decide +kernel

theorem test_witness_WaitEndsAfterTheCompletion :
    inFlight.busy = true ∧ inFlight.pending.isSome = true ∧ inFlight.inReset = false ∧
    (withProgram [.wait] inFlight).host = [.wait] := by decide +kernel

end Sys2Proof.Tests
end

section
/-! SUPPORT. What a step can do, said once: the completion of a decoded word, or one event of the host with its effect on
the block (70_reset_and_hazards.md rule R329). The claims about every step take these cases apart. -/

namespace Sys2Proof.Machine

/-- The state after the completion of a CMD word, by what the word decodes to (R92, R94, R329). -/
def complete : Decoded → State → State
  | .instr .parse, s => parse s
  | .instr .deriveIv, s => deriveIv s
  | .instr (.decrypt src), s => decrypt src s
  | .instr .decryptTelegram, s => decryptTelegram s
  | .instr .loadKey, s => loadKey s
  | .badOpcode, s => raiseRequest .badOpcode s
  | .reservedBits, s => raiseRequest .reservedBits s

/-- Every command has a meaning, and it is its completion. -/
theorem exec_eq_complete (i : Instr) (s : State) : exec i s = .next (complete (.instr i) s) := by cases i <;> rfl

/-- A step that answers a next state is a cycle of the host or the completion of the pending word. -/
theorem step_next_cases {s t : State} (h : step s = .next t) :
    (nextAgent s = .host ∧ t = hostTurn s) ∨
    (∃ w, nextAgent s = .engine ∧ s.pending = some w ∧ t = complete (decode w) s) := by
  rcases step_cases s with ⟨ha, hs⟩ | ⟨_, _, hs⟩ | ⟨w, i, ha, hp, hd, hs⟩ | ⟨w, ha, hp, hd, hs⟩ | ⟨w, ha, hp, hd, hs⟩
  · exact .inl ⟨ha, Host.Outcome.next.inj (h.symm.trans hs)⟩
  · cases h.symm.trans hs
  · exact .inr ⟨w, ha, hp, hd ▸ Host.Outcome.next.inj (h.symm.trans (hs.trans (exec_eq_complete i s)))⟩
  · exact .inr ⟨w, ha, hp, hd ▸ Host.Outcome.next.inj (h.symm.trans hs)⟩
  · exact .inr ⟨w, ha, hp, hd ▸ Host.Outcome.next.inj (h.symm.trans hs)⟩

/-- What an event of the host does to the block; the host's list and the port's answers are left out. -/
inductive HostEffect (s : State) : HostEvent → State → Prop
  /-- A read that changes nothing. -/
  | unchanged (e : HostEvent) : HostEffect s e s
  /-- A read while BUSY = 1, or an access in reset: a free draw is used up. -/
  | draw (e : HostEvent) : HostEffect s e (useDraw s)
  /-- A bus error (R70). -/
  | busError (e : HostEvent) : HostEffect s e (setBusErr s)
  /-- A write that is dropped (R331). -/
  | hazard (a : BitVec 12) (n : Width) (v : Word) : s.busy = true → HostEffect s (.write a n v) (setHaz s)
  /-- The issue of a command (R328). -/
  | issue (v : Word) : s.busy = false → s.inReset = false → HostEffect s (.write 0x000 .w32 v) (issue v s)
  /-- The bytes of a write are stored (R67). -/
  | store (a : BitVec 12) (n : Width) (v : Word) : s.busy = false → s.inReset = false →
      HostEffect s (.write a n v) (storeBytes a.toNat ((List.range (widthBytes n)).map (byteOf v)) s)
  /-- Reset is asserted (R320). -/
  | assertReset : HostEffect s .assertReset (assertReset s)
  /-- Reset is released (R324). -/
  | releaseReset : HostEffect s .releaseReset (releaseReset s)

/-- A write that reaches CMD moves four bytes (R64). -/
theorem width_of_cmd_write {telMax : Nat} {n : Width} (h : writeRefused telMax 0 (widthBytes n) = false) : n = .w32 := by
  cases n with
  | w8 => simp [writeRefused, legal, locate, ctlRegAt, widthBytes] at h
  | w16 => simp [writeRefused, legal, locate, ctlRegAt, widthBytes] at h
  | w32 => rfl

/-- The effect of a read, in reset or not (R66, R320). -/
theorem portRead_effect (e : HostEvent) (a : BitVec 12) (n : Width) (s : State) :
    HostEffect s e (portRead a n s).2 := by
  unfold portRead
  split
  · exact .draw e
  · rcases memRead_cases a n s with ⟨_, _, h⟩ | ⟨_, _, h⟩ | ⟨_, h⟩
    · exact h ▸ .unchanged e
    · exact h ▸ .draw e
    · exact h ▸ .busError e

/-- The effect of a write, in reset or not (R67, R320). -/
theorem portWrite_effect (a : BitVec 12) (n : Width) (v : Word) (s : State) :
    HostEffect s (.write a n v) (portWrite a n v s).2 := by
  unfold portWrite
  split
  · exact .draw _
  · next hr =>
    have hr := Bool.eq_false_iff.2 hr
    rcases memWrite_cases a n v s with ⟨_, h⟩ | ⟨_, hb, h⟩ | ⟨hw, hb, ha, h⟩ | ⟨_, hb, _, h⟩
    · exact h ▸ .busError _
    · exact h ▸ .hazard a n v hb
    · subst ha
      cases width_of_cmd_write hw
      exact h ▸ .issue v hb hr
    · exact h ▸ .store a n v hb hr

/-- Every event of the host has one of these effects on the block. -/
theorem perform_effect (e : HostEvent) (s : State) :
    ∃ t es rs, HostEffect s e t ∧ perform e s = { t with host := es, responses := rs } := by
  cases e with
  | read a n => exact ⟨_, _, _, portRead_effect _ a n s, rfl⟩
  | write a n v => exact ⟨_, _, _, portWrite_effect a n v s, rfl⟩
  | wait => exact ⟨_, _, _, portRead_effect _ 0x004 .w32 s, waitOnce_eq s⟩
  | assertReset => exact ⟨_, _, _, .assertReset, rfl⟩
  | releaseReset => exact ⟨_, _, _, .releaseReset, rfl⟩

/-- A cycle of the host: nothing happens, or its next event takes effect. -/
theorem hostTurn_effect (s : State) :
    (s.host = [] ∧ hostTurn s = tick s) ∨
    (∃ e rest t es rs, s.host = e :: rest ∧ HostEffect { tick s with host := rest } e t ∧
      hostTurn s = { t with host := es, responses := rs }) := by
  cases h : s.host with
  | nil => exact .inl ⟨rfl, by simp only [hostTurn, h]⟩
  | cons e rest =>
    obtain ⟨t, es, rs, he, ht⟩ := perform_effect e { tick s with host := rest }
    exact .inr ⟨e, rest, t, es, rs, rfl, he, by simpa only [hostTurn, h] using ht⟩

/-- Every way a step that answers a next state can go: a completion, an idle cycle, or an event of the host. -/
theorem step_effect {s t : State} (h : step s = .next t) :
    (∃ w, nextAgent s = .engine ∧ s.pending = some w ∧ t = complete (decode w) s) ∨
    (nextAgent s = .host ∧ s.host = [] ∧ t = tick s) ∨
    (∃ e rest u es rs, nextAgent s = .host ∧ s.host = e :: rest ∧ HostEffect { tick s with host := rest } e u ∧
      t = { u with host := es, responses := rs }) := by
  rcases step_next_cases h with ⟨ha, rfl⟩ | hc
  · rcases hostTurn_effect s with ⟨hn, ht⟩ | ⟨e, rest, u, es, rs, hc, he, ht⟩
    · exact .inr (.inl ⟨ha, hn, ht⟩)
    · exact .inr (.inr ⟨e, rest, u, es, rs, ha, hc, he, ht⟩)
  · exact .inl hc

end Sys2Proof.Machine
end

section
/-! SUPPORT and the proof of the machine's invariant: every completion ends with legal codes and coherent data, and every
event of the host keeps both. -/

namespace Sys2Proof.Machine

/-- The part of `State.Inv` that neither the command in flight nor ERR and DETAIL enter. -/
abbrev State.DataInv (s : State) : Prop :=
  (s.causeA.toNat ≤ 4 ∧ s.causeB.toNat ≤ 4) ∧ s.OutcomeCoherent ∧ s.PlaintextCoherent ∧ s.RecordCoherent ∧
    s.KeyCoherent ∧ s.TelMaxLegal ∧ s.MemoryCanonical

theorem State.Inv.dataInv {s : State} (h : s.Inv) : s.DataInv := by
  obtain ⟨_, ⟨_, _, _, _, hca, hcb⟩, hdata⟩ := h
  exact ⟨⟨hca, hcb⟩, hdata⟩

/-! The codes of STATUS. -/

/-- An error kind that the block writes has a code that is not reserved (R282). -/
theorem ErrKind.code_legal {e : ErrKind} (h : e ≠ .invalidEncoding) : e.code.toNat ≤ 5 ∧ e.code ≠ 2 := by
  cases e with
  | invalidEncoding => exact absurd rfl h
  | none | malformedTelegram | invalidKeyLength | decryptionFailed | requestError => decide

@[simp] theorem ErrKind.code_eq_five_iff (e : ErrKind) : e.code = 5#4 ↔ e = .requestError := by cases e <;> decide

theorem Detail.code_le (d : Detail) : d.code.toNat ≤ 6 := by cases d <;> decide

@[simp] theorem Detail.code_eq_zero_iff (d : Detail) : d.code = 0#4 ↔ d = .none := by cases d <;> decide

theorem Cause.code_le (c : Cause) : c.code.toNat ≤ 4 := by cases c <;> decide

@[simp] theorem Cause.code_eq_zero_iff (c : Cause) : c.code = 0#3 ↔ c = .none := by cases c <;> decide

/-! The end of a command. -/

/-- A command that ends with coherent data and agreeing codes leaves the invariant (R282, R283, R329). -/
theorem finish_inv {e : ErrKind} {d : Detail} {s : State} (he : e ≠ .invalidEncoding)
    (hd : e = .requestError ↔ d ≠ .none) (h : s.DataInv) : (finish e d s).Inv := by
  obtain ⟨⟨hca, hcb⟩, hdata⟩ := h
  have hed : e.code = 5 ↔ d.code ≠ 0 := by simpa using hd
  exact ⟨⟨rfl, fun _ => rfl⟩, ⟨(ErrKind.code_legal he).1, (ErrKind.code_legal he).2, d.code_le, hed, hca, hcb⟩, hdata⟩

theorem endOk_inv {s : State} (h : s.DataInv) : (endOk s).Inv := finish_inv (by decide) (by decide) h

theorem raiseError_inv {e : ErrKind} {s : State} (he : e ≠ .invalidEncoding) (hr : e ≠ .requestError)
    (h : s.DataInv) : (raiseError e s).Inv := finish_inv he (by simp [hr]) h

theorem raiseRequest_inv {d : Detail} {s : State} (hd : d ≠ .none) (h : s.DataInv) : (raiseRequest d s).Inv :=
  finish_inv (by decide) (by simp [hd]) h

/-! What the commands write. -/

/-- Without a decryption of the record the result fields and PT_VALID agree (R32, R33, R39). -/
theorem coherent_of_no_decryption {s : State} (ha : s.causeA = 0) (hb : s.causeB = 0) (ho : s.outcome = 0)
    (hv : s.ptValid = false) (hl : s.ptLen = 0) :
    (s.causeA.toNat ≤ 4 ∧ s.causeB.toNat ≤ 4) ∧ s.OutcomeCoherent ∧ s.PlaintextCoherent := by
  simp [State.OutcomeCoherent, State.PlaintextCoherent, ha, hb, ho, hv, hl]

theorem parseHeader_dataInv {s : State} (h : s.DataInv) : (parseHeader s).DataInv := by
  obtain ⟨_, _, _, _, hkey, hmax, hmem⟩ := h
  obtain ⟨hc, ho, hp⟩ := coherent_of_no_decryption (s := parseHeader s) rfl rfl rfl rfl rfl
  exact ⟨hc, ho, hp, fun hn => by simp at hn, hkey, hmax, hmem⟩

theorem clearRecord_dataInv {s : State} (h : s.DataInv) : (clearRecord s).DataInv := by
  obtain ⟨_, _, _, _, hkey, hmax, hmem⟩ := h
  obtain ⟨hc, ho, hp⟩ := coherent_of_no_decryption (s := clearRecord s) rfl rfl rfl rfl rfl
  exact ⟨hc, ho, hp, fun _ => ⟨rfl, rfl, rfl, rfl⟩, hkey, hmax, hmem⟩

/-- No conjunct of the invariant speaks of the IV (R45). -/
theorem storeDerivedIv_dataInv {s : State} (h : s.DataInv) : (storeDerivedIv s).DataInv := by
  unfold storeDerivedIv
  exact h

theorem afterAttempt_dataInv {s : State} (ct : List Byte) (h : s.DataInv) : (afterAttempt ct s).DataInv := by
  unfold afterAttempt
  split
  · exact h
  · exact h

/-- A successful attempt on a slice within TEL_MAX commits coherent data (R32, R33, R49, R175): the outcome is that of
the IV register without a first cause, or that of the zero IV. -/
theorem commit_dataInv {o : OutcomeKind} {a : Cause} {pt : List Byte} {s : State}
    (ho : (o = .okIvReg ∧ a = .none) ∨ o = .okZero) (h0 : pt.length ≠ 0) (h16 : pt.length % 16 = 0)
    (hle : pt.length ≤ s.telMax.toNat) (h : s.DataInv) :
    (setOutcome o a .none (commitPlaintext pt s)).DataInv := by
  obtain ⟨_, _, _, hrec, hkey, hmax, htwf, htin, _, _⟩ := h
  have hlen : (BitVec.ofNat 16 pt.length).toNat = pt.length := by
    rw [BitVec.toNat_ofNat]; exact Nat.mod_eq_of_lt (by omega)
  have hout : (setOutcome o a .none (commitPlaintext pt s)).OutcomeCoherent := by
    rcases ho with ⟨rfl, rfl⟩ | rfl
    · simp [State.OutcomeCoherent, OutcomeKind.code]
    · simp [State.OutcomeCoherent, OutcomeKind.code]
  have hval : o.code = 1 ∨ o.code = 2 := by
    rcases ho with ⟨rfl, _⟩ | rfl
    · exact .inl rfl
    · exact .inr rfl
  have hpt : (setOutcome o a .none (commitPlaintext pt s)).PlaintextCoherent := by
    refine ⟨⟨fun _ => hval, fun _ => rfl⟩, fun hn => by simp at hn, fun _ => ?_⟩
    simp only [setOutcome_fields, commitPlaintext_fields, hlen]
    refine ⟨by omega, h16, hle, fun i hi => ?_⟩
    simp [Memory.read_ofBytes, hi]
  exact ⟨⟨a.code_le, Cause.code_le _⟩, hout, hpt, hrec, hkey, hmax, htwf, htin, Memory.ofBytes_wf pt 0,
    Memory.ofBytes_within pt hle⟩

/-- A failed decryption leaves coherent data (R33, R176). -/
theorem discard_dataInv {a b : Cause} {s : State} (ha : a ≠ .none) (h : s.DataInv) :
    (setOutcome .failed a b (discardPlaintext s)).DataInv := by
  obtain ⟨_, _, _, hrec, hkey, hmax, htwf, htin, _, _⟩ := h
  refine ⟨⟨a.code_le, b.code_le⟩, ?_, ?_, hrec, hkey, hmax, htwf, htin, Memory.nil_wf, Memory.nil_within _⟩
  · simp [State.OutcomeCoherent, OutcomeKind.code, ha]
  · simp [State.PlaintextCoherent, OutcomeKind.code]

/-! The commands. -/

theorem parse_inv {s : State} (h : s.DataInv) : (parse s).Inv := by
  rcases parse_cases s with ⟨_, hs⟩ | ⟨_, _, hs⟩ | ⟨_, _, hs⟩
  · exact hs ▸ raiseRequest_inv (by decide) h
  · exact hs ▸ raiseError_inv (by decide) (by decide) (clearRecord_dataInv h)
  · exact hs ▸ endOk_inv (parseHeader_dataInv h)

theorem deriveIv_inv {s : State} (h : s.DataInv) : (deriveIv s).Inv := by
  rcases deriveIv_cases s with ⟨_, hs⟩ | ⟨_, hs⟩
  · exact hs ▸ raiseRequest_inv (by decide) h
  · exact hs ▸ endOk_inv (storeDerivedIv_dataInv h)

/-- The outcome of a successful DECRYPT is one of a success, and it has no cause (R170). -/
theorem successOutcome_cases (src : IvSrc) :
    (successOutcome src = .okIvReg ∧ Cause.none = .none) ∨ successOutcome src = .okZero := by
  cases src with
  | ivReg => exact .inl ⟨rfl, rfl⟩
  | zeroIv => exact .inr rfl

/-- An attempt does not change TEL_MAX. -/
@[simp] theorem afterAttempt_telMax (ct : List Byte) (s : State) : (afterAttempt ct s).telMax = s.telMax := by
  unfold afterAttempt
  split
  · rfl
  · rfl

theorem decryptSlice_inv (src : IvSrc) {s : State} (hle : s.ctLen.toNat ≤ s.telMax.toNat) (h : s.DataInv) :
    (decryptSlice src s).Inv := by
  rcases decryptSlice_cases src s with ⟨pt, ha, hs⟩ | ⟨c, hc, _, hs⟩
  · obtain ⟨h0, h16, _, hlen⟩ := attempt_ok ha
    rw [← hlen] at h0 h16
    rw [length_ciphertext] at hlen
    exact hs ▸ endOk_inv (commit_dataInv (successOutcome_cases src) h0 h16 (by simpa [hlen] using hle)
      (afterAttempt_dataInv _ h))
  · exact hs ▸ raiseError_inv (by decide) (by decide) (discard_dataInv hc (afterAttempt_dataInv _ h))

theorem decrypt_inv (src : IvSrc) {s : State} (h : s.DataInv) : (decrypt src s).Inv := by
  rcases decrypt_cases src s with ⟨_, hs⟩ | ⟨_, _, hs⟩ | ⟨_, hmax, hsum, hs⟩
  · exact hs ▸ raiseRequest_inv (by decide) h
  · exact hs ▸ raiseRequest_inv (by decide) h
  · exact hs ▸ decryptSlice_inv src (by omega) h

theorem twoAttempts_dataInv {ct : List Byte} {s : State} (hle : ct.length ≤ s.telMax.toNat) (h : s.DataInv) :
    (twoAttempts ct s).DataInv := by
  have h1 := afterAttempt_dataInv ct h
  rcases twoAttempts_cases ct s with ⟨pt, ha, hs⟩ | ⟨c1, pt, _, _, ha, hs⟩ | ⟨c1, c2, hc, _, _, _, hs⟩
  · obtain ⟨h0, h16, _, hlen⟩ := attempt_ok ha
    rw [← hlen] at h0 h16 hle
    exact hs ▸ commit_dataInv (.inl ⟨rfl, rfl⟩) h0 h16 (by simpa using hle) h1
  · obtain ⟨h0, h16, _, hlen⟩ := attempt_ok ha
    rw [← hlen] at h0 h16 hle
    exact hs ▸ commit_dataInv (.inr rfl) h0 h16 (by simpa using hle) (afterAttempt_dataInv ct h1)
  · exact hs ▸ discard_dataInv hc (afterAttempt_dataInv ct h1)

/-- The payload that ParseHeader describes lies within TEL_MAX (R122). -/
theorem length_payload_le {s : State} (hmax : s.telLen.toNat ≤ s.telMax.toNat) (hmin : 10 ≤ s.telLen.toNat) :
    (ciphertext (storeDerivedIv (parseHeader s))).length ≤ s.telMax.toNat := by
  have hsub : (s.telLen - 9).toNat ≤ s.telLen.toNat := by bv_omega
  simpa using hsub.trans hmax

theorem decryptTelegram_inv {s : State} (h : s.DataInv) : (decryptTelegram s).Inv := by
  rcases decryptTelegram_cases s with ⟨_, hs⟩ | ⟨_, _, hs⟩ | ⟨_, _, _, hs⟩ | ⟨_, hmax, hmin, hs⟩
  · exact hs ▸ raiseRequest_inv (by decide) h
  · exact hs ▸ raiseRequest_inv (by decide) h
  · exact hs ▸ raiseError_inv (by decide) (by decide) (clearRecord_dataInv h)
  · exact hs ▸ endOk_inv (twoAttempts_dataInv (by simpa using length_payload_le hmax hmin)
      (storeDerivedIv_dataInv (parseHeader_dataInv h)))

/-- The staged key is held with KEY_VALID = 1 (R262). -/
theorem installKey_dataInv {s : State} (h : s.DataInv) : (installKey s).DataInv := by
  obtain ⟨hc, ho, hp, hrec, _, hrest⟩ := h
  exact ⟨hc, ho, hp, hrec, fun hn => by simp at hn, hrest⟩

theorem loadKey_inv {s : State} (h : s.DataInv) : (loadKey s).Inv := by
  rcases loadKey_cases s with ⟨_, hs⟩ | ⟨_, _, hs⟩ | ⟨_, _, hs⟩
  · exact hs ▸ raiseRequest_inv (by decide) h
  · exact hs ▸ raiseError_inv (by decide) (by decide) h
  · have hk : (installKey s).DataInv := installKey_dataInv h
    exact hs ▸ endOk_inv hk

/-- Every completion leaves the invariant. -/
theorem complete_inv (d : Decoded) {s : State} (h : s.DataInv) : (complete d s).Inv := by
  cases d with
  | instr i =>
    cases i with
    | parse => exact parse_inv h
    | deriveIv => exact deriveIv_inv h
    | decrypt src => exact decrypt_inv src h
    | decryptTelegram => exact decryptTelegram_inv h
    | loadKey => exact loadKey_inv h
  | badOpcode => exact raiseRequest_inv (by decide) h
  | reservedBits => exact raiseRequest_inv (by decide) h

/-! The host's events. -/

/-- A mapped byte of TEL_BUF lies below TEL_MAX (R48, R62). -/
theorem locate_telBuf_lt {telMax o i : Nat} (h : locate telMax o = some (.telBuf i)) : i < telMax := by
  unfold locate at h
  split_ifs at h with _ _ _ _ _ hi
  · obtain ⟨r, _, hr⟩ := Option.map_eq_some_iff.1 h
    cases hr
  · cases h
  · cases h
  · exact Loc.telBuf.inj (Option.some.inj h) ▸ hi
  · cases h

/-- A stored byte keeps TEL_BUF canonical and inside TEL_MAX. -/
theorem storeAt_telBuf_canonical (o : Nat) (b : Byte) {s : State} (hwf : s.telBuf.wf)
    (hin : s.telBuf.within s.telMax.toNat) :
    (storeAt o b s).telBuf.wf ∧ (storeAt o b s).telBuf.within s.telMax.toNat := by
  unfold storeAt
  split
  · next l hl =>
    cases l with
    | ctl r k => cases r <;> exact ⟨hwf, hin⟩
    | iv i => exact ⟨hwf, hin⟩
    | keyIn i => exact ⟨hwf, hin⟩
    | telBuf i => exact ⟨Memory.write_wf hwf i b, Memory.write_within hin (locate_telBuf_lt hl) b⟩
    | ptBuf i => exact ⟨hwf, hin⟩
  · exact ⟨hwf, hin⟩

/-- A stored byte leaves TEL_MAX, which is hardwired (R38). -/
theorem storeAt_telMax (o : Nat) (b : Byte) (s : State) : (storeAt o b s).telMax = s.telMax := by rw [storeAt_frame]

/-- The stored bytes of a write keep TEL_BUF canonical and inside TEL_MAX. -/
theorem storeBytes_telBuf_canonical (o : Nat) (bs : List Byte) {s : State} (hwf : s.telBuf.wf)
    (hin : s.telBuf.within s.telMax.toNat) :
    (storeBytes o bs s).telBuf.wf ∧ (storeBytes o bs s).telBuf.within s.telMax.toNat := by
  induction bs generalizing o s with
  | nil => exact ⟨hwf, hin⟩
  | cons b bs ih =>
    obtain ⟨hwf', hin'⟩ := storeAt_telBuf_canonical o b hwf hin
    rw [← storeAt_telMax o b s] at hin' ⊢
    exact ih (o + 1) hwf' hin'

theorem storeBytes_inv (o : Nat) (bs : List Byte) {s : State} (h : s.Inv) : (storeBytes o bs s).Inv := by
  obtain ⟨hcmd, hcodes, ho, hp, hrec, hkey, hmax, htwf, htin, hpwf, hpin⟩ := h
  obtain ⟨htwf', htin'⟩ := storeBytes_telBuf_canonical o bs htwf htin
  rw [storeBytes_frame]
  exact ⟨hcmd, hcodes, ho, hp, hrec, hkey, hmax, htwf', htin', hpwf, hpin⟩

theorem issue_inv (v : Word) {s : State} (hr : s.inReset = false) (h : s.Inv) : (issue v s).Inv := by
  obtain ⟨_, hrest⟩ := h
  exact ⟨⟨rfl, fun hn => by simp [hr] at hn⟩, hrest⟩

theorem assertReset_inv {s : State} (h : s.Inv) : (assertReset s).Inv := by
  obtain ⟨_, _, _, _, _, _, hmax, _⟩ := h
  obtain ⟨_, ho, hp⟩ := coherent_of_no_decryption (s := assertReset s) rfl rfl rfl rfl rfl
  have hcodes : (assertReset s).CodesLegal := by simp [State.CodesLegal, assertReset, State.resetWith]
  exact ⟨⟨rfl, fun _ => rfl⟩, hcodes, ho, hp, fun _ => ⟨rfl, rfl, rfl, rfl⟩, fun _ => rfl, hmax,
    Memory.nil_wf, Memory.nil_within _, Memory.nil_wf, Memory.nil_within _⟩

theorem releaseReset_inv {s : State} (h : s.Inv) : (releaseReset s).Inv := by
  obtain ⟨⟨hbusy, _⟩, hrest⟩ := h
  exact ⟨⟨hbusy, fun hn => by simp at hn⟩, hrest⟩

/-- Every effect of a host event keeps the invariant. -/
theorem HostEffect.inv {s t : State} {e : HostEvent} (he : HostEffect s e t) (h : s.Inv) : t.Inv := by
  cases he with
  | unchanged => exact h
  | draw => exact h
  | busError => exact h
  | hazard => exact h
  | issue v _ hr => exact issue_inv v hr h
  | store a n v => exact storeBytes_inv _ _ h
  | assertReset => exact assertReset_inv h
  | releaseReset => exact releaseReset_inv h

/-- Settles O49: a completion leaves the invariant whatever ran (`complete_inv`), and a host event keeps it
(`HostEffect.inv`); the invariant does not see the host's list, the answers and the lag. -/
theorem stepKeepsTheInvariant : Obligations.StepKeepsTheInvariant := by
  intro s t h hstep
  rcases step_effect hstep with ⟨w, _, _, rfl⟩ | ⟨_, _, rfl⟩ | ⟨e, rest, u, es, rs, _, _, he, rfl⟩
  · exact complete_inv (decode w) h.dataInv
  · exact h
  · have hu : u.Inv := he.inv h
    exact hu

end Sys2Proof.Machine
end

section
/-! The claims about what a step changes of BUSY, of the key and of the fault bits. Each has a lemma about the effects of a
host event; the completions are covered by one lemma, that every completion is a `finish`. -/

namespace Sys2Proof.Machine

/-! What the completions and the host's events leave of these fields. -/

/-- The sticky bits, KEY_VALID and KEY of two states agree. -/
abbrev SameFaultsAndKey (s t : State) : Prop :=
  t.haz = s.haz ∧ t.busErr = s.busErr ∧ t.keyValid = s.keyValid ∧ t.key = s.key

/-- An attempt writes nothing (R172). -/
theorem afterAttempt_sameFaultsAndKey (ct : List Byte) (s : State) : SameFaultsAndKey s (afterAttempt ct s) := by
  unfold afterAttempt
  split
  · exact ⟨rfl, rfl, rfl, rfl⟩
  · exact ⟨rfl, rfl, rfl, rfl⟩

theorem decryptSlice_eq_finish (src : IvSrc) (s : State) :
    ∃ e d u, decryptSlice src s = finish e d u ∧ SameFaultsAndKey s u := by
  have h := afterAttempt_sameFaultsAndKey (ciphertext s) s
  rcases decryptSlice_cases src s with ⟨_, _, hs⟩ | ⟨_, _, _, hs⟩
  · exact ⟨_, _, _, hs, h⟩
  · exact ⟨_, _, _, hs, h⟩

theorem twoAttempts_sameFaultsAndKey (ct : List Byte) (s : State) : SameFaultsAndKey s (twoAttempts ct s) := by
  have h := afterAttempt_sameFaultsAndKey ct s
  have h' := afterAttempt_sameFaultsAndKey ct (afterAttempt ct s)
  simp only [SameFaultsAndKey, h] at h'
  rcases twoAttempts_cases ct s with ⟨_, _, hs⟩ | ⟨_, _, _, _, _, hs⟩ | ⟨_, _, _, _, _, _, hs⟩
  · exact hs ▸ h
  · exact hs ▸ h'
  · exact hs ▸ h'

/-- The parse and the attempts of DECRYPT_TELEGRAM, named (R230). -/
theorem parseAndDecrypt_eq (s : State) : parseAndDecrypt s =
    twoAttempts (ciphertext (storeDerivedIv (parseHeader s))) (storeDerivedIv (parseHeader s)) := rfl

theorem parseAndDecrypt_sameFaultsAndKey (s : State) : SameFaultsAndKey s (parseAndDecrypt s) := by
  simpa [SameFaultsAndKey, parseAndDecrypt_eq] using twoAttempts_sameFaultsAndKey
    (ciphertext (storeDerivedIv (parseHeader s))) (storeDerivedIv (parseHeader s))

/-- Every completion but that of LOAD_KEY ends a command without a write of the key or of a sticky bit. -/
theorem complete_eq_finish {c : Decoded} (hc : c ≠ .instr .loadKey) (s : State) :
    ∃ e d u, complete c s = finish e d u ∧ SameFaultsAndKey s u := by
  cases c with
  | instr i =>
    cases i with
    | parse =>
      rcases parse_cases s with ⟨_, hs⟩ | ⟨_, _, hs⟩ | ⟨_, _, hs⟩
      · exact ⟨_, _, _, hs, rfl, rfl, rfl, rfl⟩
      · exact ⟨_, _, _, hs, rfl, rfl, rfl, rfl⟩
      · exact ⟨_, _, _, hs, rfl, rfl, rfl, rfl⟩
    | deriveIv =>
      rcases deriveIv_cases s with ⟨_, hs⟩ | ⟨_, hs⟩
      · exact ⟨_, _, _, hs, rfl, rfl, rfl, rfl⟩
      · exact ⟨_, _, _, hs, by simp [SameFaultsAndKey]⟩
    | decrypt src =>
      rcases decrypt_cases src s with ⟨_, hs⟩ | ⟨_, _, hs⟩ | ⟨_, _, _, hs⟩
      · exact ⟨_, _, _, hs, rfl, rfl, rfl, rfl⟩
      · exact ⟨_, _, _, hs, rfl, rfl, rfl, rfl⟩
      · simpa only [complete, hs] using decryptSlice_eq_finish src s
    | decryptTelegram =>
      rcases decryptTelegram_cases s with ⟨_, hs⟩ | ⟨_, _, hs⟩ | ⟨_, _, _, hs⟩ | ⟨_, _, _, hs⟩
      · exact ⟨_, _, _, hs, rfl, rfl, rfl, rfl⟩
      · exact ⟨_, _, _, hs, rfl, rfl, rfl, rfl⟩
      · exact ⟨_, _, _, hs, rfl, rfl, rfl, rfl⟩
      · exact ⟨_, _, _, hs, parseAndDecrypt_sameFaultsAndKey s⟩
    | loadKey => exact absurd rfl hc
  | badOpcode => exact ⟨_, _, _, rfl, rfl, rfl, rfl, rfl⟩
  | reservedBits => exact ⟨_, _, _, rfl, rfl, rfl, rfl, rfl⟩

/-- LOAD_KEY leaves the key locked and as it was, or installs KEY_IN, or leaves KEY_VALID = 0 (R260). -/
theorem loadKey_key (s : State) :
    (s.keyValid = true → (loadKey s).keyValid = true ∧ (loadKey s).key = s.key) ∧
    (s.keyValid = false → (loadKey s).keyValid = true → (loadKey s).key = s.keyIn) := by
  rcases loadKey_cases s with ⟨hv, hs⟩ | ⟨hv, _, hs⟩ | ⟨hv, _, hs⟩
  · simp [hs, hv, raiseRequest]
  · simp [hs, hv, raiseError]
  · simp [hs, hv, endOk]

/-- No completion writes a sticky bit (R28, R29). -/
theorem complete_faults (c : Decoded) (s : State) : (complete c s).haz = s.haz ∧ (complete c s).busErr = s.busErr := by
  by_cases hc : c = .instr .loadKey
  · subst hc
    rcases loadKey_cases s with ⟨_, hs⟩ | ⟨_, _, hs⟩ | ⟨_, _, hs⟩
    · simp [complete, hs, raiseRequest]
    · simp [complete, hs, raiseError]
    · simp [complete, hs, endOk]
  · obtain ⟨e, d, u, hs, hhaz, herr, _, _⟩ := complete_eq_finish hc s
    exact hs ▸ ⟨hhaz, herr⟩

/-- The store of a write leaves BUSY, the key and the sticky bits (R67). -/
@[simp] theorem storeBytes_flags (o : Nat) (bs : List Byte) (s : State) :
    (storeBytes o bs s).busy = s.busy ∧ (storeBytes o bs s).haz = s.haz ∧ (storeBytes o bs s).busErr = s.busErr ∧
    (storeBytes o bs s).keyValid = s.keyValid ∧ (storeBytes o bs s).key = s.key := by
  rw [storeBytes_frame]
  exact ⟨rfl, rfl, rfl, rfl, rfl⟩

/-- The assertion of reset clears BUSY, KEY_VALID and the sticky bits (R320). -/
@[simp] theorem assertReset_flags (s : State) :
    (assertReset s).busy = false ∧ (assertReset s).haz = false ∧ (assertReset s).busErr = false ∧
    (assertReset s).keyValid = false := ⟨rfl, rfl, rfl, rfl⟩

/-! BUSY. -/

/-- Of the host's events only a 4-byte write of CMD sets BUSY (R24, R328). -/
theorem HostEffect.busy_set {s t : State} {e : HostEvent} (he : HostEffect s e t) (hs : s.busy = false)
    (ht : t.busy = true) : ∃ v, e = .write 0x000 .w32 v ∧ s.inReset = false ∧ t.pending = some v := by
  cases he with
  | issue v _ hr => exact ⟨v, rfl, hr, rfl⟩
  | unchanged | draw | busError | hazard | store | assertReset | releaseReset => simp_all

/-- Of the host's events only the assertion of reset clears BUSY (R24, R321). -/
theorem HostEffect.busy_cleared {s t : State} {e : HostEvent} (he : HostEffect s e t) (hs : s.busy = true)
    (ht : t.busy = false) : e = .assertReset := by
  cases he with
  | assertReset => rfl
  | unchanged | draw | busError | hazard | issue | store | releaseReset => simp_all

/-- Settles O51: the engine completes only where BUSY = 1, and of the host's events the issue alone sets BUSY and the
assertion of reset alone clears it. -/
theorem busyFollowsIssueAndCompletion : Obligations.BusyFollowsIssueAndCompletion := by
  intro s t hstep
  rcases step_effect hstep with ⟨_, ha, _, _⟩ | ⟨_, _, rfl⟩ | ⟨e, rest, u, es, rs, _, hhost, he, rfl⟩
  · obtain ⟨hb, _, _⟩ := (nextAgent_engine_iff s).1 ha
    exact ⟨fun hn => by simp [hb] at hn, fun _ _ => .inl ha⟩
  · exact ⟨fun hn hb => by simp [hn] at hb, fun hb hn => by simp [hb] at hn⟩
  · refine ⟨fun hn hb => ?_, fun hb hn => .inr ⟨rest, he.busy_cleared hb hn ▸ hhost⟩⟩
    obtain ⟨v, rfl, hr, hp⟩ := he.busy_set hn hb
    exact ⟨v, rest, hhost, hr, hp⟩

/-! The key. -/

/-- A word that decodes to a command has its OP and no reserved bit (R92). -/
theorem decode_instr {w : Word} {i : Instr} (h : decode w = .instr i) :
    instrOf (opOf w) (ivSrcOf w) = some i ∧ w &&& ~~~(allowedBits (opOf w)) = 0 := by
  unfold decode at h
  split at h
  · cases h
  · next hi =>
    split at h
    · cases h
    · next hr =>
      cases h
      exact ⟨hi, not_not.1 hr⟩

/-- OP 0x5 alone names LOAD_KEY (R90). -/
theorem instrOf_loadKey {op : BitVec 4} {src : IvSrc} (h : instrOf op src = some .loadKey) : op = 0x5 := by
  revert h
  cases src <;> revert op <;> decide

/-- One word alone decodes to LOAD_KEY (R93). -/
theorem decode_loadKey_word {w : Word} (h : decode w = .instr .loadKey) : w = 0x00000005 := by
  obtain ⟨hi, hr⟩ := decode_instr h
  have hop := instrOf_loadKey hi
  rw [hop] at hr
  apply BitVec.eq_of_getLsbD_eq
  intro i hi
  have hlow := congrArg (BitVec.getLsbD · i) hop
  have hhigh := congrArg (BitVec.getLsbD · i) hr
  simp only [opOf, allowedBits] at hlow hhigh
  interval_cases i <;> simp_all

/-- The host's events leave KEY and KEY_VALID, but for the assertion of reset (R25, R46). -/
theorem HostEffect.key {s t : State} {e : HostEvent} (he : HostEffect s e t) :
    e = .assertReset ∧ t.keyValid = false ∨ t.keyValid = s.keyValid ∧ t.key = s.key := by
  cases he with
  | assertReset => exact .inl ⟨rfl, rfl⟩
  | store => exact .inr (by simp)
  | unchanged | draw | busError | hazard | issue | releaseReset => exact .inr ⟨rfl, rfl⟩

/-- Settles O52: of the completions LOAD_KEY alone writes the key, and only while KEY_VALID = 0; of the host's events the
assertion of reset alone clears it. -/
theorem keyIsImmutableUntilReset : Obligations.KeyIsImmutableUntilReset := by
  intro s t hstep
  rcases step_effect hstep with ⟨w, ha, hp, rfl⟩ | ⟨_, _, rfl⟩ | ⟨e, rest, u, es, rs, ha, hhost, he, rfl⟩
  · by_cases hd : decode w = .instr .loadKey
    · obtain ⟨hlocked, hset⟩ := loadKey_key s
      rw [hd]
      exact ⟨fun hv => .inr (hlocked hv), fun hv ht => ⟨ha, decode_loadKey_word hd ▸ hp, hset hv ht⟩⟩
    · obtain ⟨e, d, u, hc, _, _, hkv, hk⟩ := complete_eq_finish hd s
      rw [hc]
      exact ⟨fun hv => .inr ⟨hkv.trans hv, hk⟩, fun hv ht => by simp [hkv, hv] at ht⟩
  · exact ⟨fun hv => .inr ⟨hv, rfl⟩, fun hv ht => by simp [hv] at ht⟩
  · rcases he.key with ⟨rfl, hn⟩ | ⟨hkv, hk⟩
    · exact ⟨fun _ => .inl ⟨rest, ha, hhost⟩, fun _ ht => by simp [hn] at ht⟩
    · exact ⟨fun hv => .inr ⟨hkv.trans hv, hk⟩, fun hv ht => by simp [hkv, hv] at ht⟩

/-! The sticky bits. -/

/-- The host's events keep HAZ and BUSERR where they are set, but for the assertion of reset (R28, R29). -/
theorem HostEffect.sticky {s t : State} {e : HostEvent} (he : HostEffect s e t) :
    e = .assertReset ∨ (s.haz = true → t.haz = true) ∧ (s.busErr = true → t.busErr = true) := by
  cases he with
  | assertReset => exact .inl rfl
  | unchanged | draw | busError | hazard | issue | store | releaseReset => exact .inr (by simp_all)

/-- Of the host's events only a write while BUSY = 1 sets HAZ (R28, R331). -/
theorem HostEffect.haz_set {s t : State} {e : HostEvent} (he : HostEffect s e t) (hs : s.haz = false)
    (ht : t.haz = true) : s.busy = true ∧ ∃ a n v, e = .write a n v := by
  cases he with
  | hazard a n v hb => exact ⟨hb, a, n, v, rfl⟩
  | unchanged | draw | busError | issue | store | assertReset | releaseReset => simp_all

/-- Settles O53: no completion writes a sticky bit, and of the host's events the assertion of reset alone clears one and
a write while BUSY = 1 alone sets HAZ. -/
theorem faultBitsAreSticky : Obligations.FaultBitsAreSticky := by
  intro s t hstep
  rcases step_effect hstep with ⟨w, _, _, rfl⟩ | ⟨_, _, rfl⟩ | ⟨e, rest, u, es, rs, ha, hhost, he, rfl⟩
  · obtain ⟨hhaz, herr⟩ := complete_faults (decode w) s
    exact ⟨.inr ⟨hhaz.trans, herr.trans⟩, fun hn ht => by simp [hhaz, hn] at ht⟩
  · exact ⟨.inr ⟨id, id⟩, fun hn ht => by simp [hn] at ht⟩
  · refine ⟨?_, fun hn ht => ?_⟩
    · rcases he.sticky with rfl | hkeep
      · exact .inl ⟨rest, ha, hhost⟩
      · exact .inr hkeep
    · obtain ⟨hb, a, n, v, rfl⟩ := he.haz_set hn ht
      exact ⟨hb, a, n, v, rest, hhost⟩

end Sys2Proof.Machine
end

section
/-! The words of the control registers on the port, and the writes of the length registers, of IV and of KEY_IN: the
address map once a region, then each claim by the region's rule (10_state.md sections 2 to 5, 20_memory.md). -/

namespace Sys2Proof.Machine

/-! The control registers. -/

/-- The control registers end at word 13 (R62). -/
theorem ctlRegAt_lt {k : Nat} {r : CtlReg} (h : ctlRegAt k = some r) : k < 14 := by
  unfold ctlRegAt at h
  split at h
  case h_15 => cases h
  all_goals decide

/-- The four bytes of a control register (R62). -/
theorem locate_ctl {k j : Nat} {r : CtlReg} (hr : ctlRegAt k = some r) (hj : j < 4) (telMax : Nat) :
    locate telMax (4 * k + j) = some (.ctl r j) := by
  have hk := ctlRegAt_lt hr
  have hdiv : (4 * k + j) / 4 = k := by omega
  have hmod : (4 * k + j) % 4 = j := by omega
  rw [locate, if_pos (by omega), hdiv, hmod, hr, Option.map_some]

/-- The first byte of a control register (R62). -/
theorem locate_ctl_zero {k : Nat} {r : CtlReg} (hr : ctlRegAt k = some r) (telMax : Nat) :
    locate telMax (4 * k) = some (.ctl r 0) := locate_ctl (j := 0) hr (by decide) telMax

/-- An aligned 4-byte access of a control register is legal (R64). -/
theorem legal_ctl {k : Nat} {r : CtlReg} (hr : ctlRegAt k = some r) (telMax : Nat) :
    legal telMax (4 * k) 4 = true := by
  simp [legal, locate_ctl_zero hr]

/-- A read of a control register while BUSY = 0 answers its word and changes nothing (R66). -/
theorem memRead_ctl {k : Nat} {r : CtlReg} {a : BitVec 12} {s : State} (ha : a.toNat = 4 * k)
    (hr : ctlRegAt k = some r) (hb : s.busy = false) : memRead a .w32 s = (⟨false, ctlWord s r⟩, s) := by
  have hbyte (j : Nat) (hj : j < 4) : readAt s (4 * k) j = byteOf (ctlWord s r) j := by
    simp [readAt, locate_ctl hr hj, readLoc, hb, locByte]
  have hdata : readData s (4 * k) 4 = ctlWord s r := by
    rw [← leBytes_byteOf (ctlWord s r)]
    simp [readData, List.range, List.range.loop, hbyte]
  simp [memRead, ha, widthBytes, legal_ctl hr, hdata, hb]

/-- A write of a read-only control register is a bus error, whatever its width (R67). -/
theorem memWrite_readOnly {k : Nat} {r : CtlReg} {a : BitVec 12} (ha : a.toNat = 4 * k) (hr : ctlRegAt k = some r)
    (hro : r.readOnly = true) (n : Width) (v : Word) (s : State) : memWrite a n v s = (⟨true, 0⟩, setBusErr s) := by
  simp [memWrite, writeRefused, notWritable, ha, locate_ctl_zero hr, Loc.readOnly, hro]

/-- A write that is not refused, while BUSY = 0 and not of CMD, stores its bytes (R67). -/
theorem memWrite_store {a : BitVec 12} {n : Width} {s : State}
    (hw : writeRefused s.telMax.toNat a.toNat (widthBytes n) = false) (hb : s.busy = false) (ha : a ≠ 0x000)
    (v : Word) : memWrite a n v s =
      (⟨false, 0⟩, storeBytes a.toNat ((List.range (widthBytes n)).map (byteOf v)) s) := by
  rw [memWrite, if_neg (Bool.eq_false_iff.1 hw), if_neg (Bool.eq_false_iff.1 hb), if_neg ha]

/-- A write of a control register other than CMD while BUSY = 0 stores its four bytes (R67). -/
theorem memWrite_ctl {k : Nat} {r : CtlReg} {a : BitVec 12} {s : State} (ha : a.toNat = 4 * k)
    (hr : ctlRegAt k = some r) (hro : r.readOnly = false) (hcmd : a ≠ 0x000) (hb : s.busy = false) (v : Word) :
    memWrite a .w32 v s = (⟨false, 0⟩, storeCtl r 3 (byteOf v 3) (storeCtl r 2 (byteOf v 2)
      (storeCtl r 1 (byteOf v 1) (storeCtl r 0 (byteOf v 0) s)))) := by
  have hstore (j : Nat) (hj : j < 4) (b : Byte) (u : State) : storeAt (4 * k + j) b u = storeCtl r j b u := by
    simp [storeAt, locate_ctl hr hj, storeLoc]
  have hw : writeRefused s.telMax.toNat a.toNat (widthBytes .w32) = false := by
    simp [writeRefused, ha, widthBytes, legal_ctl hr, notWritable, locate_ctl_zero hr, Loc.readOnly, hro]
  rw [memWrite_store hw hb hcmd, ha, ← hstore 0 (by decide), ← hstore 1 (by decide), ← hstore 2 (by decide),
    ← hstore 3 (by decide)]
  rfl

/-! The words of the registers. -/

/-- A 16-bit little-endian pair read as a word has its upper bytes 0 (R68). -/
theorem setWidth_le16 (a b : Byte) : (le16 a b).setWidth 32 = le32 a b 0 0 := by
  apply BitVec.eq_of_getLsbD_eq
  intro i hi
  simp only [le16, le32, BitVec.getLsbD_or, BitVec.getLsbD_setWidth, BitVec.getLsbD_shiftLeft]
  interval_cases i <;> simp

/-- The HDR word is L, C and CI with a zero byte above them (R40). -/
theorem hdrWord_eq (s : State) : hdrWord s = le32 s.lField s.cField s.ciField 0 := by
  simp [hdrWord, field, le32]

/-- VERSION and DEVTYPE are hardwired to 0 (R44). -/
theorem verDevWord_eq_zero : verDevWord = 0 := by decide

/-- Settles O34: every register by `memRead_ctl`, whose word is the one asked for. -/
theorem controlRegisterWords : Obligations.ControlRegisterWords := by
  intro s hb
  refine ⟨memRead_ctl (k := 0) rfl rfl hb, memRead_ctl (k := 2) rfl rfl hb, memRead_ctl (k := 3) rfl rfl hb,
    memRead_ctl (k := 4) rfl rfl hb, memRead_ctl (k := 5) rfl rfl hb, memRead_ctl (k := 6) rfl rfl hb, ?_,
    memRead_ctl (k := 8) rfl rfl hb, ?_, ?_, memRead_ctl (k := 11) rfl rfl hb, ?_,
    memRead_ctl (k := 13) rfl rfl hb⟩
  · rw [memRead_ctl (k := 7) rfl rfl hb, ctlWord, hdrWord_eq]
  · rw [memRead_ctl (k := 9) rfl rfl hb, ctlWord, mfieldHiWord, setWidth_le16]
  · rw [memRead_ctl (k := 10) rfl rfl hb, ctlWord, mcode, setWidth_le16]
  · rw [memRead_ctl (k := 12) rfl rfl hb, ctlWord, verDevWord_eq_zero]

/-- The bits of STATUS that one flag or no field has (R23). -/
theorem statusWord_bits (s : State) :
    (statusWord s).getLsbD 0 = s.busy ∧ (statusWord s).getLsbD 1 = s.keyValid ∧
    (statusWord s).getLsbD 2 = s.parsed ∧ (statusWord s).getLsbD 3 = s.ptValid ∧
    (statusWord s).getLsbD 4 = s.haz ∧ (statusWord s).getLsbD 5 = s.busErr ∧
    (statusWord s).getLsbD 19 = false ∧ (statusWord s).getLsbD 23 = false := by
  simp [statusWord, flag, field]

/-- The fields of STATUS of more than one bit, and the bits that are always 0 (R23): each is compared bit by bit. -/
theorem statusWord_fields (s : State) :
    (statusWord s).extractLsb' 6 2 = 0 ∧ (statusWord s).extractLsb' 8 4 = s.err ∧
    (statusWord s).extractLsb' 12 4 = s.detail ∧ (statusWord s).extractLsb' 16 3 = s.causeA ∧
    (statusWord s).extractLsb' 20 3 = s.causeB ∧ (statusWord s).extractLsb' 24 2 = s.outcome ∧
    (statusWord s).extractLsb' 26 6 = 0 := by
  and_intros
  all_goals
    apply BitVec.eq_of_getLsbD_eq
    intro i hi
    interval_cases i <;> simp [statusWord, flag, field]

/-- Settles O33: a read of STATUS answers `statusWord`, whose fields do not overlap, and STATUS is read only. -/
theorem statusWordLayout : Obligations.StatusWordLayout := by
  intro s hb
  obtain ⟨h0, h1, h2, h3, h4, h5, h19, h23⟩ := statusWord_bits s
  obtain ⟨h6, herr, hdetail, hca, hcb, hout, h26⟩ := statusWord_fields s
  exact ⟨statusWord s, memRead_ctl (k := 1) rfl rfl hb, fun n v => memWrite_readOnly (k := 1) rfl rfl rfl n v s,
    h0, h1, h2, h3, h4, h5, h6, herr, hdetail, hca, h19, hcb, h23, hout, h26⟩

/-- Settles O37: the four bytes stored into a 16-bit or 8-bit register leave the low bits of the word (`withByte_word16`,
`withByte_word8`). -/
theorem lengthRegisterWrites : Obligations.LengthRegisterWrites := by
  intro v s hb
  refine ⟨?_, ?_, ?_, ?_⟩
  · rw [memWrite_ctl (k := 2) rfl rfl rfl (by decide) hb]
    simp only [storeCtl, withByte_word16]
  · rw [memWrite_ctl (k := 3) rfl rfl rfl (by decide) hb]
    simp only [storeCtl, withByte_word8]
  · rw [memWrite_ctl (k := 4) rfl rfl rfl (by decide) hb]
    simp only [storeCtl, withByte_word16]
  · rw [memWrite_ctl (k := 5) rfl rfl rfl (by decide) hb]
    simp only [storeCtl, withByte_word16]

/-! The byte regions. -/

/-- A naturally aligned access whose bytes all lie in one byte region is legal (R65). -/
theorem legal_of_region {telMax o n : Nat} {r : Region} (hr : r ≠ .control) (hn : 0 < n) (halign : o % n = 0)
    (h : ∀ k < n, (locate telMax (o + k)).map Loc.region = some r) : legal telMax o n = true := by
  have hall : allInRegion telMax o n r = true := by simpa [allInRegion] using h
  obtain ⟨l, hl, hlr⟩ := Option.map_eq_some_iff.1 (h 0 hn)
  rw [Nat.add_zero] at hl
  rw [legal, hl]
  cases l with
  | ctl c k => exact absurd hlr.symm hr
  | iv i | keyIn i | telBuf i | ptBuf i => simp [halign, hlr, hall]

theorem locate_iv {i : Nat} (hi : i < 16) (telMax : Nat) :
    locate telMax (0x040 + i) = some (.iv (Fin.ofNat 16 i)) := by
  rw [locate, if_neg (by omega), if_pos (by omega), Nat.add_sub_cancel_left]

theorem locate_keyIn {i : Nat} (hi : i < 16) (telMax : Nat) :
    locate telMax (0x050 + i) = some (.keyIn (Fin.ofNat 16 i)) := by
  rw [locate, if_neg (by omega), if_neg (by omega), if_pos (by omega), Nat.add_sub_cancel_left]

/-- A block with the bytes of a list stored from index `i` on. -/
def overwrite (b : Block) : (i : Nat) → List Byte → Block
  | _, [] => b
  | i, c :: cs => overwrite (b.set (Fin.ofNat 16 i) c) (i + 1) cs

/-- The bytes of an overwritten block: the list's where it reaches, the old ones elsewhere. -/
theorem getElem_overwrite (b : Block) (cs : List Byte) {i j : Nat} (hi : i + cs.length ≤ 16) (hj : j < 16) :
    (overwrite b i cs)[j] = if i ≤ j ∧ j < i + cs.length then cs.getD (j - i) 0 else b[j] := by
  induction cs generalizing b i with
  | nil => rw [overwrite, List.length_nil, if_neg (by omega)]
  | cons c cs ih =>
    rw [List.length_cons] at hi
    rw [overwrite, ih _ (by omega), Vector.getElem_set, Fin.val_ofNat, Nat.mod_eq_of_lt (by omega)]
    rcases Nat.lt_trichotomy j i with h | rfl | h
    · rw [if_neg (by omega), if_neg (by omega), if_neg (by omega)]
    · simp
    · have hsub : j - i = j - (i + 1) + 1 := by omega
      simp [show i + 1 ≤ j from h, h.le, h.ne, hsub, Nat.add_assoc, Nat.add_comm 1]

theorem storeBytes_iv (cs : List Byte) {i : Nat} (hi : i + cs.length ≤ 16) (s : State) :
    storeBytes (0x040 + i) cs s = { s with iv := overwrite s.iv i cs } := by
  induction cs generalizing i s with
  | nil => rfl
  | cons c cs ih =>
    rw [List.length_cons] at hi
    rw [storeBytes, storeAt, locate_iv (i := i) (by omega)]
    exact ih (i := i + 1) (by omega) _

theorem storeBytes_keyIn (cs : List Byte) {i : Nat} (hi : i + cs.length ≤ 16) (s : State) :
    storeBytes (0x050 + i) cs s = { s with keyIn := overwrite s.keyIn i cs } := by
  induction cs generalizing i s with
  | nil => rfl
  | cons c cs ih =>
    rw [List.length_cons] at hi
    rw [storeBytes, storeAt, locate_keyIn (i := i) (by omega)]
    exact ih (i := i + 1) (by omega) _

theorem widthBytes_pos (n : Width) : 0 < widthBytes n := by cases n <;> decide

/-- The regions begin at multiples of 4, so an aligned index gives an aligned offset (R61, R62). -/
theorem aligned_offset {n : Width} {base i : Nat} (hbase : base % 4 = 0) (hi : i % widthBytes n = 0) :
    (base + i) % widthBytes n = 0 := by
  cases n with
  | w8 => exact Nat.mod_one _
  | w16 => rw [widthBytes] at hi ⊢; omega
  | w32 => rw [widthBytes] at hi ⊢; omega

/-- A naturally aligned write inside a region that the host may write is not refused (R65, R67). -/
theorem writeRefused_of_region {telMax o n : Nat} {r : Region} (hr : r ≠ .control) (hpt : r ≠ .ptBuf) (hn : 0 < n)
    (halign : o % n = 0) (h : ∀ k < n, (locate telMax (o + k)).map Loc.region = some r) :
    writeRefused telMax o n = false := by
  obtain ⟨l, hl, hlr⟩ := Option.map_eq_some_iff.1 (h 0 hn)
  have hro : l.readOnly = false := by
    cases l with
    | ctl c k => exact absurd hlr.symm hr
    | ptBuf i => exact absurd hlr.symm hpt
    | iv i | keyIn i | telBuf i => rfl
  rw [Nat.add_zero] at hl
  rw [writeRefused, legal_of_region hr hn halign h, notWritable, hl]
  exact hro

/-- A naturally aligned write inside such a region while BUSY = 0 stores its bytes (R67). -/
theorem memWrite_region {n : Width} {base i : Nat} {r : Region} {s : State} (hr : r ≠ .control) (hpt : r ≠ .ptBuf)
    (hbase : base % 4 = 0) (hpos : 0 < base) (hlt : base + i < 2 ^ 12) (hb : s.busy = false)
    (halign : i % widthBytes n = 0)
    (h : ∀ k < widthBytes n, (locate s.telMax.toNat (base + i + k)).map Loc.region = some r) (v : Word) :
    memWrite (BitVec.ofNat 12 (base + i)) n v s =
      (⟨false, 0⟩, storeBytes (base + i) ((List.range (widthBytes n)).map (byteOf v)) s) := by
  have ha : (BitVec.ofNat 12 (base + i)).toNat = base + i := by rw [BitVec.toNat_ofNat, Nat.mod_eq_of_lt hlt]
  have hne : BitVec.ofNat 12 (base + i) ≠ 0x000 := fun h0 => by
    have h0 : base + i = 0 := ha.symm.trans (congrArg BitVec.toNat h0)
    omega
  have hw := writeRefused_of_region hr hpt (widthBytes_pos n) (aligned_offset hbase halign) h
  rw [memWrite_store (by rw [ha]; exact hw) hb hne, ha]

/-- A naturally aligned write inside IV stores its bytes (R45, R67). -/
theorem memWrite_iv {n : Width} {i : Nat} {s : State} (hb : s.busy = false) (halign : i % widthBytes n = 0)
    (hi : i + widthBytes n ≤ 16) (v : Word) : memWrite (BitVec.ofNat 12 (0x040 + i)) n v s =
      (⟨false, 0⟩, { s with iv := overwrite s.iv i ((List.range (widthBytes n)).map (byteOf v)) }) := by
  have hregion (k : Nat) (hk : k < widthBytes n) :
      (locate s.telMax.toNat (0x040 + i + k)).map Loc.region = some .iv := by
    rw [Nat.add_assoc, locate_iv (by omega)]; rfl
  rw [memWrite_region (by decide) (by decide) (by decide) (by decide) (by omega) hb halign hregion,
    storeBytes_iv _ (by simpa using hi)]

/-- A naturally aligned write inside KEY_IN stores its bytes (R47, R67). -/
theorem memWrite_keyIn {n : Width} {i : Nat} {s : State} (hb : s.busy = false) (halign : i % widthBytes n = 0)
    (hi : i + widthBytes n ≤ 16) (v : Word) : memWrite (BitVec.ofNat 12 (0x050 + i)) n v s =
      (⟨false, 0⟩, { s with keyIn := overwrite s.keyIn i ((List.range (widthBytes n)).map (byteOf v)) }) := by
  have hregion (k : Nat) (hk : k < widthBytes n) :
      (locate s.telMax.toNat (0x050 + i + k)).map Loc.region = some .keyIn := by
    rw [Nat.add_assoc, locate_keyIn (by omega)]; rfl
  rw [memWrite_region (by decide) (by decide) (by decide) (by decide) (by omega) hb halign hregion,
    storeBytes_keyIn _ (by simpa using hi)]

/-- The bytes of a block overwritten by the low bytes of a word (R63). -/
theorem getElem_overwrite_word (b : Block) (v : Word) {m i j : Nat} (hi : i + m ≤ 16) (hj : j < 16) :
    (overwrite b i ((List.range m).map (byteOf v)))[j] =
      if i ≤ j ∧ j < i + m then v.extractLsb' (8 * (j - i)) 8 else b[j] := by
  rw [getElem_overwrite b _ (by simpa using hi) hj, List.length_map, List.length_range]
  split
  · next h => simp [byteOf, show j - i < m by omega]
  · rfl

/-- Settles O39: the write stores its bytes (`memWrite_iv`, `memWrite_keyIn`), which `getElem_overwrite_word` reads back. -/
theorem ivAndKeyInWrites : Obligations.IvAndKeyInWrites := by
  intro n i v s hb halign hi
  exact ⟨⟨_, memWrite_iv hb halign hi v, rfl, fun _ => getElem_overwrite_word s.iv v hi⟩,
    ⟨_, memWrite_keyIn hb halign hi v, rfl, fun _ => getElem_overwrite_word s.keyIn v hi⟩⟩

end Sys2Proof.Machine
end

section
/-! The model's choice that stale plaintext is never seen (log 3): every operation of a step from two states with
PT_VALID = 0 that differ in the stored bytes of PT_BUF alone does the same to both. -/

namespace Sys2Proof.Machine

/-- The state with other bytes stored in PT_BUF. -/
def withPtBuf (m : Memory) (s : State) : State := { s with ptBuf := m }

/-- What of the state the stored bytes of PT_BUF leave alone, as far as the steps below look at it. -/
@[simp] theorem withPtBuf_fields (m : Memory) (s : State) :
    (withPtBuf m s).busy = s.busy ∧ (withPtBuf m s).keyValid = s.keyValid ∧ (withPtBuf m s).parsed = s.parsed ∧
    (withPtBuf m s).keyLen = s.keyLen ∧ (withPtBuf m s).iv = s.iv ∧ (withPtBuf m s).telMax = s.telMax ∧
    (withPtBuf m s).inReset = s.inReset ∧ (withPtBuf m s).host = s.host :=
  ⟨rfl, rfl, rfl, rfl, rfl, rfl, rfl, rfl⟩

/-- Two states differ at most in bytes of PT_BUF that none of them shows. -/
abbrev AgreeButStale (t u : State) : Prop := u = { t with ptBuf := u.ptBuf } ∧ (t.ptValid = true → u = t)

/-- States without a plaintext that differ in the stored bytes alone agree so. -/
theorem agreeButStale_withPtBuf {t : State} (m : Memory) (h : t.ptValid = false) : AgreeButStale t (withPtBuf m t) :=
  ⟨rfl, fun hv => by simp [h] at hv⟩

theorem agreeButStale_refl (t : State) : AgreeButStale t t := ⟨rfl, fun _ => rfl⟩

/-! The port. -/

/-- No byte that the port reads while PT_VALID = 0 is a stored one of PT_BUF (R49). -/
theorem locByte_withPtBuf (m : Memory) {s : State} (h : s.ptValid = false) (l : Loc) :
    locByte (withPtBuf m s) l = locByte s l := by
  cases l with
  | ptBuf i => exact ptByte_unspecified_congr (.inl h) (.inl h) rfl
  | ctl r k => cases r <;> rfl
  | iv i => rfl
  | keyIn i => rfl
  | telBuf i => rfl

theorem readData_withPtBuf (m : Memory) {s : State} (h : s.ptValid = false) (o n : Nat) :
    readData (withPtBuf m s) o n = readData s o n := by
  have hbyte : readAt (withPtBuf m s) o = readAt s o := by
    funext k
    simp only [readAt, readLoc, locByte_withPtBuf m h]
    rfl
  rw [readData, readData, hbyte]

theorem memRead_withPtBuf (m : Memory) {s : State} (h : s.ptValid = false) (a : BitVec 12) (n : Width) :
    memRead a n (withPtBuf m s) = ((memRead a n s).1, withPtBuf m (memRead a n s).2) := by
  simp only [memRead, readData_withPtBuf m h, withPtBuf_fields]
  split_ifs
  · rfl
  · rfl
  · rfl

/-- No store depends on PT_BUF or reaches it (R67). -/
theorem storeAt_withPtBuf (m : Memory) (o : Nat) (b : Byte) (s : State) :
    storeAt o b (withPtBuf m s) = withPtBuf m (storeAt o b s) := by
  simp only [storeAt, withPtBuf_fields]
  split
  · next l _ =>
    cases l with
    | ctl r k => cases r <;> rfl
    | iv i | keyIn i | telBuf i | ptBuf i => rfl
  · rfl

theorem storeBytes_withPtBuf (m : Memory) (o : Nat) (bs : List Byte) (s : State) :
    storeBytes o bs (withPtBuf m s) = withPtBuf m (storeBytes o bs s) := by
  induction bs generalizing o s with
  | nil => rfl
  | cons b bs ih => rw [storeBytes, storeBytes, storeAt_withPtBuf, ih]

theorem memWrite_withPtBuf (m : Memory) (a : BitVec 12) (n : Width) (v : Word) (s : State) :
    memWrite a n v (withPtBuf m s) = ((memWrite a n v s).1, withPtBuf m (memWrite a n v s).2) := by
  simp only [memWrite, storeBytes_withPtBuf, withPtBuf_fields]
  split_ifs
  · rfl
  · rfl
  · rfl
  · rfl

theorem portRead_withPtBuf (m : Memory) {s : State} (h : s.ptValid = false) (a : BitVec 12) (n : Width) :
    portRead a n (withPtBuf m s) = ((portRead a n s).1, withPtBuf m (portRead a n s).2) := by
  simp only [portRead, memRead_withPtBuf m h, withPtBuf_fields]
  split
  · rfl
  · rfl

theorem portWrite_withPtBuf (m : Memory) (a : BitVec 12) (n : Width) (v : Word) (s : State) :
    portWrite a n v (withPtBuf m s) = ((portWrite a n v s).1, withPtBuf m (portWrite a n v s).2) := by
  simp only [portWrite, memWrite_withPtBuf, withPtBuf_fields]
  split
  · rfl
  · rfl

/-! The host's cycle. -/

/-- No event of the host sets PT_VALID (R27). -/
theorem HostEffect.ptValid {s t : State} {e : HostEvent} (he : HostEffect s e t) (h : s.ptValid = false) :
    t.ptValid = false := by
  cases he with
  | store => rw [storeBytes_frame]; exact h
  | assertReset => rfl
  | unchanged | draw | busError | hazard | issue | releaseReset => exact h

/-- An event of the host does the same to both states; the assertion of reset drops the stored bytes (R323). -/
theorem perform_withPtBuf (m : Memory) (e : HostEvent) {s : State} (h : s.ptValid = false) :
    ∃ m', perform e (withPtBuf m s) = withPtBuf m' (perform e s) := by
  cases e with
  | read a n => exact ⟨m, by simp only [perform, portRead_withPtBuf m h]; rfl⟩
  | write a n v => exact ⟨m, by simp only [perform, portWrite_withPtBuf]; rfl⟩
  | wait => exact ⟨m, by simp only [perform, waitOnce_eq, portRead_withPtBuf m h]; rfl⟩
  | assertReset => exact ⟨[], rfl⟩
  | releaseReset => exact ⟨m, rfl⟩

theorem hostTurn_agree (m : Memory) {s : State} (h : s.ptValid = false) :
    AgreeButStale (hostTurn s) (hostTurn (withPtBuf m s)) := by
  have hcommute : ∃ m', hostTurn (withPtBuf m s) = withPtBuf m' (hostTurn s) := by
    simp only [hostTurn, withPtBuf_fields]
    split
    · exact ⟨m, rfl⟩
    · next e rest _ => exact perform_withPtBuf m e (s := { tick s with host := rest }) h
  have hvalid : (hostTurn s).ptValid = false := by
    rcases hostTurn_effect s with ⟨_, ht⟩ | ⟨_, _, u, _, _, _, he, ht⟩
    · exact ht ▸ h
    · exact ht ▸ he.ptValid h
  obtain ⟨m', hm⟩ := hcommute
  exact hm ▸ agreeButStale_withPtBuf m' hvalid

/-! The commands. -/

/-- The checks and operands of the commands do not see PT_BUF (R95). -/
@[simp] theorem withPtBuf_operands (m : Memory) (s : State) :
    telTooLong (withPtBuf m s) = telTooLong s ∧ telTooShort (withPtBuf m s) = telTooShort s ∧
    sliceTooLong (withPtBuf m s) = sliceTooLong s ∧ ciphertext (withPtBuf m s) = ciphertext s := ⟨rfl, rfl, rfl, rfl⟩

@[simp] theorem ivOperand_withPtBuf (src : IvSrc) (m : Memory) (s : State) :
    ivOperand src (withPtBuf m s) = ivOperand src s := by cases src <;> rfl

@[simp] theorem attempt_withPtBuf (ct : List Byte) (iv : Block) (m : Memory) (s : State) :
    attempt ct iv (withPtBuf m s) = attempt ct iv s := rfl

@[simp] theorem afterAttempt_withPtBuf (ct : List Byte) (m : Memory) (s : State) :
    afterAttempt ct (withPtBuf m s) = withPtBuf m (afterAttempt ct s) := by
  unfold afterAttempt
  split
  · rfl
  · rfl

/-- CommitPlaintext replaces every stored byte (R175). -/
@[simp] theorem commitPlaintext_withPtBuf (pt : List Byte) (m : Memory) (s : State) :
    commitPlaintext pt (withPtBuf m s) = commitPlaintext pt s := rfl

/-- DiscardPlaintext drops every stored byte (R176). -/
@[simp] theorem discardPlaintext_withPtBuf (m : Memory) (s : State) :
    discardPlaintext (withPtBuf m s) = discardPlaintext s := rfl

theorem decryptSlice_withPtBuf (src : IvSrc) (m : Memory) (s : State) :
    decryptSlice src (withPtBuf m s) = decryptSlice src s := by
  simp [decryptSlice]

theorem twoAttempts_withPtBuf (ct : List Byte) (m : Memory) (s : State) :
    twoAttempts ct (withPtBuf m s) = twoAttempts ct s := by
  simp [twoAttempts, fallbackAttempt]

theorem parseAndDecrypt_withPtBuf (m : Memory) (s : State) : parseAndDecrypt (withPtBuf m s) = parseAndDecrypt s := by
  have h : storeDerivedIv (parseHeader (withPtBuf m s)) = withPtBuf m (storeDerivedIv (parseHeader s)) := by
    unfold storeDerivedIv; rfl
  rw [parseAndDecrypt_eq, parseAndDecrypt_eq, h, twoAttempts_withPtBuf, (withPtBuf_operands _ _).2.2.2]

/-- A command that ends the same way with the stored bytes kept, and without a plaintext. -/
theorem agree_finish (m : Memory) (e : ErrKind) (d : Detail) {s : State} (h : s.ptValid = false) :
    AgreeButStale (finish e d s) (finish e d (withPtBuf m s)) := agreeButStale_withPtBuf m (t := finish e d s) h

theorem parse_agree (m : Memory) {s : State} (h : s.ptValid = false) :
    AgreeButStale (parse s) (parse (withPtBuf m s)) := by
  simp only [parse, withPtBuf_operands]
  split_ifs
  · exact agree_finish m _ _ h
  · exact agree_finish m _ _ (s := clearRecord s) rfl
  · exact agree_finish m _ _ (s := parseHeader s) rfl

theorem deriveIv_agree (m : Memory) {s : State} (h : s.ptValid = false) :
    AgreeButStale (deriveIv s) (deriveIv (withPtBuf m s)) := by
  simp only [deriveIv, withPtBuf_fields]
  split_ifs
  · have hd : storeDerivedIv (withPtBuf m s) = withPtBuf m (storeDerivedIv s) := by unfold storeDerivedIv; rfl
    rw [hd]
    exact agree_finish m _ _ (by simpa using h)
  · exact agree_finish m _ _ h

theorem decrypt_agree (src : IvSrc) (m : Memory) {s : State} (h : s.ptValid = false) :
    AgreeButStale (decrypt src s) (decrypt src (withPtBuf m s)) := by
  simp only [decrypt, withPtBuf_fields, withPtBuf_operands, decryptSlice_withPtBuf]
  split_ifs
  · exact agree_finish m _ _ h
  · exact agree_finish m _ _ h
  · exact agreeButStale_refl _

theorem decryptTelegram_agree (m : Memory) {s : State} (h : s.ptValid = false) :
    AgreeButStale (decryptTelegram s) (decryptTelegram (withPtBuf m s)) := by
  simp only [decryptTelegram, withPtBuf_fields, withPtBuf_operands, parseAndDecrypt_withPtBuf]
  split_ifs
  · exact agree_finish m _ _ h
  · exact agree_finish m _ _ h
  · exact agree_finish m _ _ (s := clearRecord s) rfl
  · exact agreeButStale_refl _

theorem loadKey_agree (m : Memory) {s : State} (h : s.ptValid = false) :
    AgreeButStale (loadKey s) (loadKey (withPtBuf m s)) := by
  simp only [loadKey, withPtBuf_fields]
  split_ifs
  · exact agree_finish m _ _ h
  · exact agree_finish m _ _ (s := clearKeyIn s) h
  · exact agree_finish m _ _ (s := clearKeyIn (installKey s)) h

theorem complete_agree (c : Decoded) (m : Memory) {s : State} (h : s.ptValid = false) :
    AgreeButStale (complete c s) (complete c (withPtBuf m s)) := by
  cases c with
  | instr i =>
    cases i with
    | parse => exact parse_agree m h
    | deriveIv => exact deriveIv_agree m h
    | decrypt src => exact decrypt_agree src m h
    | decryptTelegram => exact decryptTelegram_agree m h
    | loadKey => exact loadKey_agree m h
  | badOpcode => exact agree_finish m _ _ h
  | reservedBits => exact agree_finish m _ _ h

/-- Settles O56: both states give the turn to the same agent, whose cycle does the same to both (`hostTurn_agree`,
`complete_agree`). -/
theorem stalePlaintextIsNeverSeen : Obligations.StalePlaintextIsNeverSeen := by
  intro s t u m h ht hu
  have hagent : nextAgent (withPtBuf m s) = nextAgent s := rfl
  rcases step_next_cases ht with ⟨ha, rfl⟩ | ⟨w, ha, hp, rfl⟩
  · rcases step_next_cases hu with ⟨_, rfl⟩ | ⟨_, hb, _, _⟩
    · exact hostTurn_agree m h
    · cases (hagent.symm.trans hb).symm.trans ha
  · rcases step_next_cases hu with ⟨hb, _⟩ | ⟨w', _, hq, rfl⟩
    · cases (hagent.symm.trans hb).symm.trans ha
    · cases hp.symm.trans hq
      exact complete_agree (decode w) m h

end Sys2Proof.Machine
end

section
/-! Which accesses the port answers, and with what: the address map by region as arithmetic on the offset (20_memory.md
rules R62 to R65), then the reads and the writes of the byte regions and the bus errors (R66 to R70). -/

namespace Sys2Proof.Machine

/-! The regions of the address map. -/

/-- The offset at which a region begins (R62). -/
def Region.base : Region → Nat
  | .control => 0x000
  | .iv => 0x040
  | .keyIn => 0x050
  | .telBuf => 0x400
  | .ptBuf => 0x800

/-- The number of mapped bytes of a region; a buffer has 0x400 offsets of the window (R62). -/
def Region.size (telMax : Nat) : Region → Nat
  | .control => 0x038
  | .iv => 16
  | .keyIn => 16
  | .telBuf => min telMax 0x400
  | .ptBuf => min telMax 0x400

/-- The control registers are the words below word 14 (R62). -/
theorem ctlRegAt_isSome {k : Nat} (h : k < 14) : ∃ r, ctlRegAt k = some r := by
  interval_cases k <;> exact ⟨_, rfl⟩

theorem locate_telBuf {telMax i : Nat} (hi : i < min telMax 0x400) :
    locate telMax (0x400 + i) = some (.telBuf i) := by
  rw [locate, if_neg (by omega), if_neg (by omega), if_neg (by omega), if_neg (by omega), if_pos (by omega),
    Nat.add_sub_cancel_left, if_pos (by omega)]

theorem locate_ptBuf {telMax i : Nat} (hi : i < min telMax 0x400) :
    locate telMax (0x800 + i) = some (.ptBuf i) := by
  rw [locate, if_neg (by omega), if_neg (by omega), if_neg (by omega), if_neg (by omega), if_neg (by omega),
    if_pos (by omega), Nat.add_sub_cancel_left, if_pos (by omega)]

/-- A mapped offset lies inside the region of its location (R62). -/
theorem locate_bounds {telMax o : Nat} {l : Loc} (h : locate telMax o = some l) :
    l.region.base ≤ o ∧ o < l.region.base + l.region.size telMax := by
  unfold locate at h
  split_ifs at h
  · obtain ⟨r, hr, rfl⟩ := Option.map_eq_some_iff.1 h
    have hk := ctlRegAt_lt hr
    simp only [Loc.region, Region.base, Region.size]
    omega
  all_goals
    cases h
    simp only [Loc.region, Region.base, Region.size]
    omega

/-- Every offset inside a region is mapped, to a location of that region (R62). -/
theorem locate_of_bounds {telMax o : Nat} {r : Region} (hlo : r.base ≤ o)
    (hhi : o < r.base + r.size telMax) : (locate telMax o).map Loc.region = some r := by
  obtain ⟨i, rfl⟩ := Nat.exists_eq_add_of_le hlo
  have hi : i < r.size telMax := by omega
  cases r with
  | control =>
    simp only [Region.size] at hi
    obtain ⟨c, hc⟩ := ctlRegAt_isSome (k := i / 4) (by omega)
    have hl := locate_ctl hc (Nat.mod_lt i (by decide)) telMax
    rw [Nat.div_add_mod] at hl
    simp [Region.base, hl, Loc.region]
  | iv => simp [Region.base, locate_iv hi, Loc.region]
  | keyIn => simp [Region.base, locate_keyIn hi, Loc.region]
  | telBuf => simp [Region.base, locate_telBuf hi, Loc.region]
  | ptBuf => simp [Region.base, locate_ptBuf hi, Loc.region]

/-- The address map as arithmetic on the offset (R62). -/
theorem locate_region_iff {telMax o : Nat} (r : Region) :
    (locate telMax o).map Loc.region = some r ↔ r.base ≤ o ∧ o < r.base + r.size telMax := by
  constructor
  · intro h
    obtain ⟨l, hl, rfl⟩ := Option.map_eq_some_iff.1 h
    exact locate_bounds hl
  · rintro ⟨hlo, hhi⟩
    exact locate_of_bounds hlo hhi

/-! Which accesses are legal. -/

/-- A legal access lies in one region: in the control region it is an aligned one of four bytes, in a byte region it is
naturally aligned and every byte of it lies there (R64, R65). -/
theorem legal_cases {telMax o n : Nat} (h : legal telMax o n = true) :
    ∃ l, locate telMax o = some l ∧ (l.region = .control → n = 4 ∧ o % 4 = 0) ∧
      (l.region ≠ .control → o % n = 0 ∧ ∀ k < n, (locate telMax (o + k)).map Loc.region = some l.region) := by
  unfold legal at h
  split at h
  · cases h
  · next r k hl => exact ⟨_, hl, fun _ => by simpa using h, fun hc => absurd rfl hc⟩
  · next l hc hl =>
    refine ⟨l, hl, fun hr => ?_, fun _ => by simpa [allInRegion] using h⟩
    cases l with
    | ctl r k => exact absurd rfl (hc r k)
    | iv i | keyIn i | telBuf i | ptBuf i => cases hr

/-- The legal accesses of a byte region, as arithmetic on the offset (R65). -/
theorem legal_of_bounds {telMax o n : Nat} {r : Region} (hr : r ≠ .control) (hn : 0 < n)
    (halign : o % n = 0) (hlo : r.base ≤ o) (hhi : o + n ≤ r.base + r.size telMax) : legal telMax o n = true :=
  legal_of_region hr hn halign fun _ _ => locate_of_bounds (by omega) (by omega)

/-- The aligned four-byte accesses below 0x038 are legal (R64). -/
theorem legal_of_control {telMax o : Nat} (halign : o % 4 = 0) (ho : o < 0x038) : legal telMax o 4 = true := by
  obtain ⟨r, hr⟩ := ctlRegAt_isSome (k := o / 4) (by omega)
  rw [← Nat.div_add_mod o 4, halign]
  exact legal_ctl hr telMax

/-- The accesses that the map allows, as arithmetic on the offset (R62, R64, R65). -/
abbrev AllowedByMap (telMax o n : Nat) : Prop :=
  (n = 4 ∧ o % 4 = 0 ∧ o < 0x038) ∨
    (o % n = 0 ∧ ((0x040 ≤ o ∧ o + n ≤ 0x050) ∨ (0x050 ≤ o ∧ o + n ≤ 0x060) ∨
      (0x400 ≤ o ∧ o + n ≤ 0x400 + telMax) ∨ (0x800 ≤ o ∧ o + n ≤ 0x800 + telMax)))

/-- The legal accesses are those that the map allows: in a byte region the first and the last byte decide (R64, R65). -/
theorem legal_iff_allowedByMap {telMax o n : Nat} (hmax : telMax ≤ 0x400) (hn : 0 < n) :
    legal telMax o n = true ↔ AllowedByMap telMax o n := by
  constructor
  · intro h
    obtain ⟨l, hl, hctl, hbyte⟩ := legal_cases h
    have hfirst := locate_bounds hl
    by_cases hr : l.region = .control
    · obtain ⟨h4, halign⟩ := hctl hr
      rw [hr] at hfirst
      exact .inl ⟨h4, halign, hfirst.2⟩
    · obtain ⟨halign, hall⟩ := hbyte hr
      have hlast := (locate_region_iff _).1 (hall (n - 1) (by omega))
      refine .inr ⟨halign, ?_⟩
      cases l with
      | ctl r k => exact absurd rfl hr
      | iv i | keyIn i | telBuf i | ptBuf i =>
        simp only [Loc.region, Region.base, Region.size] at hfirst hlast
        omega
  · rintro (⟨rfl, halign, ho⟩ | ⟨halign, ⟨hlo, hhi⟩ | ⟨hlo, hhi⟩ | ⟨hlo, hhi⟩ | ⟨hlo, hhi⟩⟩)
    · exact legal_of_control halign ho
    · exact legal_of_bounds (r := .iv) (by decide) hn halign hlo hhi
    · exact legal_of_bounds (r := .keyIn) (by decide) hn halign hlo hhi
    · exact legal_of_bounds (r := .telBuf) (by decide) hn halign hlo (by simp only [Region.base, Region.size]; omega)
    · exact legal_of_bounds (r := .ptBuf) (by decide) hn halign hlo (by simp only [Region.base, Region.size]; omega)

/-! Which writes are refused. -/

/-- STATUS and the registers from PT_LEN on are read only (R67). -/
theorem ctlRegAt_readOnly {k : Nat} {r : CtlReg} (h : ctlRegAt k = some r) : r.readOnly = true ↔ k = 1 ∨ 6 ≤ k := by
  have hk := ctlRegAt_lt h
  interval_cases k <;> cases h <;> decide

/-- The offsets that no write changes: STATUS, the words from PT_LEN on, PT_BUF and above (R62, R67). -/
abbrev ReadOnlyOffset (o : Nat) : Prop := o / 4 = 1 ∨ (0x018 ≤ o ∧ o < 0x038) ∨ 0x800 ≤ o

/-- The read-only locations are those at such offsets (R67). -/
theorem locate_readOnly_iff {telMax o : Nat} {l : Loc} (h : locate telMax o = some l) :
    l.readOnly = true ↔ ReadOnlyOffset o := by
  have hb := locate_bounds h
  cases l with
  | ctl r k =>
    simp only [Loc.region, Region.base, Region.size] at hb
    rw [locate, if_pos (by omega)] at h
    obtain ⟨c, hc, hl⟩ := Option.map_eq_some_iff.1 h
    cases hl
    rw [Loc.readOnly, ctlRegAt_readOnly hc]
    omega
  | iv i | keyIn i | telBuf i =>
    simp only [Loc.region, Region.base, Region.size] at hb
    exact iff_of_false Bool.false_ne_true (by omega)
  | ptBuf i => exact iff_of_true rfl (.inr (.inr hb.1))

/-- A write of a read-only offset is refused, whether the offset is mapped or not (R67). -/
theorem writeRefused_of_readOnly {o : Nat} (h : ReadOnlyOffset o) (telMax n : Nat) :
    writeRefused telMax o n = true := by
  have hw : notWritable telMax o = true := by
    unfold notWritable
    split
    · next l hl => exact (locate_readOnly_iff hl).2 h
    · rfl
  rw [writeRefused, hw, Bool.or_true]

/-- A write is performed exactly when it is legal and its offset is not read only (R67). -/
theorem writeRefused_eq_false_iff (telMax o n : Nat) :
    writeRefused telMax o n = false ↔ legal telMax o n = true ∧ ¬ ReadOnlyOffset o := by
  constructor
  · intro h
    refine ⟨?_, fun hro => ?_⟩
    · rw [writeRefused, Bool.or_eq_false_iff] at h
      simpa using h.1
    · rw [writeRefused_of_readOnly hro] at h
      cases h
  · rintro ⟨hlegal, hro⟩
    obtain ⟨l, hl, _⟩ := legal_cases hlegal
    rw [writeRefused, hlegal, notWritable, hl]
    simpa using mt (locate_readOnly_iff hl).1 hro

/-- A read is answered with a bus error exactly when it is not legal (R66, R70). -/
theorem memRead_busError (a : BitVec 12) (n : Width) (s : State) :
    (memRead a n s).1.busError = !legal s.telMax.toNat a.toNat (widthBytes n) := by
  rcases memRead_cases a n s with ⟨hl, _, h⟩ | ⟨hl, _, h⟩ | ⟨hl, h⟩ <;> rw [h, hl] <;> rfl

/-- A write is answered with a bus error exactly when it is refused (R67, R70). -/
theorem memWrite_busError (a : BitVec 12) (n : Width) (v : Word) (s : State) :
    (memWrite a n v s).1.busError = writeRefused s.telMax.toNat a.toNat (widthBytes n) := by
  rcases memWrite_cases a n v s with ⟨hw, h⟩ | ⟨hw, _, h⟩ | ⟨hw, _, _, h⟩ | ⟨hw, _, _, h⟩ <;> rw [h, hw]

/-- Settles O30: the legal accesses by `legal_iff_allowedByMap`; a legal write of STATUS has the offset 0x004, since an
access of the control region is aligned. -/
theorem legalAccessesAreThoseOfTheMap : Obligations.LegalAccessesAreThoseOfTheMap := by
  intro a n v s hmax
  have hlegal := legal_iff_allowedByMap (o := a.toNat) hmax (widthBytes_pos n)
  refine ⟨?_, ?_⟩
  · rw [memRead_busError, Bool.not_eq_false', hlegal]
  · rw [memWrite_busError, writeRefused_eq_false_iff, hlegal]
    refine and_congr_right fun hok => ?_
    omega

/-- A refused write answers the error response and sets BUSERR (R70). -/
theorem memWrite_refused {a : BitVec 12} {n : Width} {s : State}
    (h : writeRefused s.telMax.toNat a.toNat (widthBytes n) = true) (v : Word) :
    memWrite a n v s = (⟨true, 0⟩, setBusErr s) := if_pos h

/-- A read that is not legal answers the error response and sets BUSERR (R70). -/
theorem memRead_illegal {a : BitVec 12} {n : Width} {s : State}
    (h : legal s.telMax.toNat a.toNat (widthBytes n) = false) : memRead a n s = (⟨true, 0⟩, setBusErr s) :=
  if_neg (Bool.eq_false_iff.1 h)

/-- Settles O31: an access that is not legal is refused, and so is a write of a read-only offset
(`writeRefused_of_readOnly`). -/
theorem busErrorsSetOnlyBuserr : Obligations.BusErrorsSetOnlyBuserr := by
  intro a n v s
  refine ⟨fun hlegal => ⟨memRead_illegal hlegal, memWrite_refused (by simp [writeRefused, hlegal]) v⟩, fun ha => ?_⟩
  have hro : ReadOnlyOffset a.toNat := by
    rcases ha with rfl | ha | ha
    · exact .inl rfl
    · omega
    · omega
  exact memWrite_refused (writeRefused_of_readOnly hro _ _) v

/-- Settles O32: by the cases of a read. -/
theorem readsHaveNoSideEffects : Obligations.ReadsHaveNoSideEffects := by
  intro a n s t r h
  rcases memRead_cases a n s with ⟨_, _, hs⟩ | ⟨_, _, hs⟩ | ⟨_, hs⟩ <;> cases hs.symm.trans h
  · rw [Bool.or_false]
  · rw [Bool.or_false]; rfl
  · rw [Bool.or_true]; rfl

/-! Reads of the byte regions. -/

/-- The value of an access looks at the bytes that it moves alone (R63). -/
theorem leValue_congr {n : Width} {b c : Nat → Byte} (h : ∀ k < widthBytes n, b k = c k) :
    leValue n b = leValue n c := by
  rw [← leBytes_eq_leValue, ← leBytes_eq_leValue, List.map_congr_left fun k hk => h k (List.mem_range.1 hk)]

/-- A naturally aligned read inside a byte region while BUSY = 0 answers the value of its bytes and changes nothing
(R63, R66). -/
theorem memRead_region {n : Width} {base i : Nat} {r : Region} {s : State} {b : Nat → Byte} (hr : r ≠ .control)
    (hbase : base % 4 = 0) (hlt : base + i < 2 ^ 12) (hb : s.busy = false) (halign : i % widthBytes n = 0)
    (h : ∀ k < widthBytes n, ∃ l, locate s.telMax.toNat (base + i + k) = some l ∧ l.region = r ∧ locByte s l = b k) :
    memRead (BitVec.ofNat 12 (base + i)) n s = (⟨false, leValue n b⟩, s) := by
  have ha : (BitVec.ofNat 12 (base + i)).toNat = base + i := by rw [BitVec.toNat_ofNat, Nat.mod_eq_of_lt hlt]
  have hlegal : legal s.telMax.toNat (base + i) (widthBytes n) = true :=
    legal_of_region hr (widthBytes_pos n) (aligned_offset hbase halign) fun k hk => by
      obtain ⟨l, hl, hlr, _⟩ := h k hk
      rw [hl, Option.map_some, hlr]
  have hbyte (k : Nat) (hk : k < widthBytes n) : readAt s (base + i) k = b k := by
    obtain ⟨l, hl, _, hlb⟩ := h k hk
    simp [readAt, hl, readLoc, hb, hlb]
  have hdata : readData s (base + i) (widthBytes n) = leValue n b := by
    rw [readData, leBytes_eq_leValue, leValue_congr hbyte]
  simp [memRead, ha, hlegal, hdata, hb]

/-- Settles O35: each buffer by `memRead_region`, its bytes located one by one. -/
theorem wordReadsAreLittleEndian : Obligations.WordReadsAreLittleEndian := by
  intro n s i hb hmax halign
  refine ⟨fun hi => ⟨?_, ?_⟩, fun hi => ?_⟩
  · refine memRead_region (r := .telBuf) (by decide) (by decide) (by have := widthBytes_pos n; omega) hb halign
      fun k hk => ⟨.telBuf (i + k), ?_, rfl, rfl⟩
    rw [Nat.add_assoc, locate_telBuf (by omega)]
  · refine memRead_region (r := .ptBuf) (by decide) (by decide) (by have := widthBytes_pos n; omega) hb halign
      fun k hk => ⟨.ptBuf (i + k), ?_, rfl, rfl⟩
    rw [Nat.add_assoc, locate_ptBuf (by omega)]
  · refine memRead_region (r := .iv) (by decide) (by decide) (by omega) hb halign
      fun k hk => ⟨.iv (Fin.ofNat 16 (i + k)), ?_, rfl, ?_⟩
    · rw [Nat.add_assoc, locate_iv (by omega)]
    · have hik : i + k < 16 := by omega
      simp [locByte, hik, Nat.mod_eq_of_lt hik]

/-! Reads of CMD and KEY_IN. -/

theorem leBytes_replicate_zero (n : Nat) : leBytes (List.replicate n 0) = 0 := by
  induction n with
  | zero => rfl
  | succ n ih => rw [List.replicate_succ, leBytes, ih]; decide

/-- A read whose bytes are all 0 answers 0. -/
theorem readData_eq_zero {s : State} {o n : Nat} (h : ∀ k < n, readAt s o k = 0) : readData s o n = 0 := by
  have hbytes : (List.range n).map (readAt s o) = List.replicate n 0 :=
    List.eq_replicate_iff.2 ⟨by simp, by simpa using h⟩
  rw [readData, hbytes, leBytes_replicate_zero]

/-- A byte whose value is 0 and whose bits all read exactly reads 0, BUSY or not (R332). -/
theorem readLoc_exact_zero {s : State} {l : Loc} (hv : locByte s l = 0) (he : l.exactBits = 0xFF) (free : Byte) :
    readLoc s free l = 0 := by
  unfold readLoc
  split
  · simp [hv, he]
  · exact hv

/-- CMD reads 0, BUSY or not (R69, R332). -/
theorem readAt_cmd (s : State) {k : Nat} (hk : k < 4) : readAt s 0x000 k = 0 := by
  have hl : locate s.telMax.toNat (0x000 + k) = some (.ctl .cmd k) := locate_ctl (k := 0) rfl hk _
  have hexact : (Loc.ctl .cmd k).exactBits = 0xFF := by interval_cases k <;> decide
  rw [readAt, hl]
  exact readLoc_exact_zero (by simp [locByte, ctlWord, byteOf]) hexact _

/-- A byte of KEY_IN reads 0, BUSY or not (R69, R332). -/
theorem readAt_keyIn {s : State} {o k : Nat} (h : (locate s.telMax.toNat (o + k)).map Loc.region = some .keyIn) :
    readAt s o k = 0 := by
  obtain ⟨l, hl, hr⟩ := Option.map_eq_some_iff.1 h
  cases l with
  | keyIn i => rw [readAt, hl]; exact readLoc_exact_zero rfl rfl _
  | ctl r k | iv i | telBuf i | ptBuf i => cases hr

/-- A legal access that begins in KEY_IN stays in it (R65). -/
theorem legal_keyIn {telMax o n : Nat} (h : legal telMax o n = true) (hlo : 0x050 ≤ o) (hhi : o < 0x060) :
    ∀ k < n, (locate telMax (o + k)).map Loc.region = some .keyIn := by
  obtain ⟨i, rfl⟩ := Nat.exists_eq_add_of_le hlo
  have hi := locate_keyIn (i := i) (by omega) telMax
  obtain ⟨l, hl, _, hbyte⟩ := legal_cases h
  cases hi.symm.trans hl
  exact (hbyte Region.noConfusion).2

/-- A legal access of CMD moves its four bytes (R64). -/
theorem legal_cmd {telMax n : Nat} (h : legal telMax 0x000 n = true) : n = 4 := by
  have hcmd : locate telMax 0x000 = some (.ctl .cmd 0) := locate_ctl_zero (k := 0) rfl telMax
  obtain ⟨l, hl, hctl, _⟩ := legal_cases h
  cases hcmd.symm.trans hl
  exact (hctl rfl).1

/-- A legal read answers its data (R66). -/
theorem memRead_legal {a : BitVec 12} {n : Width} {s : State}
    (h : legal s.telMax.toNat a.toNat (widthBytes n) = true) :
    (memRead a n s).1 = ⟨false, readData s a.toNat (widthBytes n)⟩ := by rw [memRead, if_pos h]

/-- Settles O36: every byte of the read is 0 (`readAt_cmd`, `readAt_keyIn`). -/
theorem writeOnlyLocationsReadZero : Obligations.WriteOnlyLocationsReadZero := by
  intro a n s hlegal ha
  have hzero : ∀ k < widthBytes n, readAt s a.toNat k = 0 := by
    rcases ha with rfl | ⟨hlo, hhi⟩
    · intro k hk
      rw [legal_cmd hlegal] at hk
      exact readAt_cmd s hk
    · exact fun k hk => readAt_keyIn (legal_keyIn hlegal hlo hhi k hk)
  rw [memRead_legal hlegal, readData_eq_zero hzero]

/-! Writes of TEL_BUF. -/

/-- A memory with the bytes of a list stored from address `i` on. -/
def Memory.writeBytes : Memory → (i : Nat) → List Byte → Memory
  | m, _, [] => m
  | m, i, b :: bs => Memory.writeBytes (m.write i b) (i + 1) bs

/-- A read after such writes: the list's bytes where it reaches, the old ones elsewhere. -/
theorem Memory.read_writeBytes (m : Memory) (i : Nat) (bs : List Byte) (j : Nat) :
    (m.writeBytes i bs).read j = if i ≤ j ∧ j < i + bs.length then bs[j - i]? else m.read j := by
  induction bs generalizing m i with
  | nil => rw [Memory.writeBytes, List.length_nil, if_neg (by omega)]
  | cons b bs ih =>
    rw [Memory.writeBytes, ih, List.length_cons]
    rcases Nat.lt_trichotomy j i with h | rfl | h
    · rw [if_neg (by omega), if_neg (by omega), Memory.read_write_other m b h.ne]
    · simp
    · have hsub : j - i = j - (i + 1) + 1 := by omega
      rw [hsub, List.getElem?_cons_succ, Memory.read_write_other m b h.ne']
      exact if_congr (by omega) rfl rfl

theorem storeBytes_telBuf (bs : List Byte) {i : Nat} {s : State} (hmax : s.telMax.toNat ≤ 0x400)
    (hi : i + bs.length ≤ s.telMax.toNat) :
    storeBytes (0x400 + i) bs s = { s with telBuf := s.telBuf.writeBytes i bs } := by
  induction bs generalizing i s with
  | nil => rfl
  | cons b bs ih =>
    rw [List.length_cons] at hi
    rw [storeBytes, storeAt, locate_telBuf (i := i) (by omega)]
    exact ih (i := i + 1) (s := { s with telBuf := s.telBuf.write i b }) hmax (by simp only; omega)

/-- A naturally aligned write inside TEL_BUF stores its bytes (R48, R67). -/
theorem memWrite_telBuf {n : Width} {i : Nat} {s : State} (hb : s.busy = false) (hmax : s.telMax.toNat ≤ 0x400)
    (halign : i % widthBytes n = 0) (hi : i + widthBytes n ≤ s.telMax.toNat) (v : Word) :
    memWrite (BitVec.ofNat 12 (0x400 + i)) n v s =
      (⟨false, 0⟩, { s with telBuf := s.telBuf.writeBytes i ((List.range (widthBytes n)).map (byteOf v)) }) := by
  have hregion (k : Nat) (hk : k < widthBytes n) :
      (locate s.telMax.toNat (0x400 + i + k)).map Loc.region = some .telBuf := by
    rw [Nat.add_assoc, locate_telBuf (by omega)]; rfl
  rw [memWrite_region (by decide) (by decide) (by decide) (by decide) (by have := widthBytes_pos n; omega) hb halign
    hregion, storeBytes_telBuf _ hmax (by simpa using hi)]

/-- Settles O38: the write stores its bytes (`memWrite_telBuf`), which `Memory.read_writeBytes` reads back. -/
theorem telegramBufferWrites : Obligations.TelegramBufferWrites := by
  intro n i v s hb hmax halign hi
  refine ⟨_, memWrite_telBuf hb hmax halign hi v, rfl, fun k hk => ?_, fun j hj => ?_⟩
  · simp [telByte, Memory.read_writeBytes, hk, byteOf]
  · have hout : ¬ (i ≤ j ∧ j < i + widthBytes n) := by omega
    simp [telByte, Memory.read_writeBytes, hout]

end Sys2Proof.Machine
end

section
/-! The host's accesses, one a step, in its program order (20_memory.md rule R73, 30_encoding.md rule R98). -/

namespace Sys2Proof.Machine

/-- A step that is the host's takes the next event of its list (R73). -/
theorem step_host {s : State} {e : HostEvent} {rest : List HostEvent} (ha : nextAgent s = .host)
    (hs : s.host = e :: rest) : step s = .next (perform e { tick s with host := rest }) := by
  simp only [step, ha, hostTurn, hs]

/-- Out of reset the port performs an access as R66 and R67 say. -/
theorem portRead_eq {s : State} (hr : s.inReset = false) (a : BitVec 12) (n : Width) :
    portRead a n s = memRead a n s := if_neg (Bool.eq_false_iff.1 hr)

theorem portWrite_eq {s : State} (hr : s.inReset = false) (a : BitVec 12) (n : Width) (v : Word) :
    portWrite a n v s = memWrite a n v s := if_neg (Bool.eq_false_iff.1 hr)

/-- A read leaves what is outside the block: the host's list and the answers it has. -/
theorem memRead_outside (a : BitVec 12) (n : Width) (s : State) :
    (memRead a n s).2.host = s.host ∧ (memRead a n s).2.responses = s.responses := by
  rcases memRead_cases a n s with ⟨_, _, h⟩ | ⟨_, _, h⟩ | ⟨_, h⟩
  · rw [h]; exact ⟨rfl, rfl⟩
  · rw [h]; exact ⟨rfl, rfl⟩
  · rw [h]; exact ⟨rfl, rfl⟩

/-- A write leaves the answers that the host has. -/
theorem memWrite_responses (a : BitVec 12) (n : Width) (v : Word) (s : State) :
    (memWrite a n v s).2.responses = s.responses := by
  rcases memWrite_cases a n v s with ⟨_, h⟩ | ⟨_, _, h⟩ | ⟨_, _, _, h⟩ | ⟨_, _, _, h⟩
  · rw [h]; rfl
  · rw [h]; rfl
  · rw [h]; rfl
  · rw [h, storeBytes_frame]

/-- A read event out of reset: the read and the record of its answer (R66, R338). -/
theorem perform_read {s : State} (hr : s.inReset = false) (a : BitVec 12) (n : Width) :
    perform (.read a n) s =
      { (memRead a n s).2 with responses := s.responses ++ [(memRead a n s).1] } := by
  obtain ⟨_, hresp⟩ := memRead_outside a n s
  rw [← hresp, ← portRead_eq hr]
  rfl

/-- A write event out of reset: the write and the record of its answer (R67, R338). -/
theorem perform_write {s : State} (hr : s.inReset = false) (a : BitVec 12) (n : Width) (v : Word) :
    perform (.write a n v) s =
      { (memWrite a n v s).2 with responses := s.responses ++ [(memWrite a n v s).1] } := by
  rw [← memWrite_responses a n v s, ← portWrite_eq hr]
  rfl

/-- A wait out of reset is one read of STATUS, and is repeated while its bit 0 is set (R98). -/
theorem perform_wait {s : State} (hr : s.inReset = false) :
    perform .wait s = { (memRead 0x004 .w32 s).2 with
      host := if (memRead 0x004 .w32 s).1.data.getLsbD 0 then .wait :: s.host else s.host
      responses := s.responses ++ [(memRead 0x004 .w32 s).1] } := by
  obtain ⟨hhost, hresp⟩ := memRead_outside 0x004 .w32 s
  rw [← hresp, ← hhost, perform, waitOnce_eq, portRead_eq hr]
  rfl

/-- A wait for an idle block ends at once, with the STATUS word (R98). -/
theorem perform_wait_idle {s : State} (hr : s.inReset = false) (hb : s.busy = false) :
    perform .wait s = { s with responses := s.responses ++ [⟨false, statusWord s⟩] } := by
  have hread : memRead 0x004 .w32 s = (⟨false, statusWord s⟩, s) := memRead_ctl (k := 1) rfl rfl hb
  have hbit : (statusWord s).getLsbD 0 = false := (statusWord_bits s).1.trans hb
  simp only [perform_wait hr, hread, hbit, Bool.false_eq_true, if_false]

/-- Settles O47: the step takes the event from the list (`step_host`), and each event has its own rule. -/
theorem hostAccessesHappenInProgramOrder : Obligations.HostAccessesHappenInProgramOrder := by
  intro s rest ha hr
  refine ⟨fun a n hs => ?_, fun a n v hs => ?_, fun hs => ?_, fun hs hb => ?_⟩
  · exact (step_host ha hs).trans (congrArg _ (perform_read (s := { tick s with host := rest }) hr a n))
  · exact (step_host ha hs).trans (congrArg _ (perform_write (s := { tick s with host := rest }) hr a n v))
  · exact (step_host ha hs).trans (congrArg _ (perform_wait (s := { tick s with host := rest }) hr))
  · exact (step_host ha hs).trans (congrArg _ (perform_wait_idle (s := { tick s with host := rest }) hr hb))

end Sys2Proof.Machine
end

section
/-! The commands read no byte of TEL_BUF at or above TEL_LEN (20_memory.md rule R77): every operation of a completion
does the same to two states whose TEL_BUF agree below TEL_LEN, and keeps the buffer that it finds. -/

namespace Sys2Proof.Machine

/-- The state with another TEL_BUF: other stored bytes, and another draw of the bytes that are not stored. -/
def withTelBuf (m : Memory) (d : Nat) (s : State) : State := { s with telBuf := m, telDraw := d }

/-- What of the state the checks of the commands look at. -/
@[simp] theorem withTelBuf_fields (m : Memory) (d : Nat) (s : State) :
    (withTelBuf m d s).keyValid = s.keyValid ∧ (withTelBuf m d s).parsed = s.parsed ∧
    (withTelBuf m d s).keyLen = s.keyLen ∧ (withTelBuf m d s).iv = s.iv ∧ telTooLong (withTelBuf m d s) = telTooLong s ∧
    telTooShort (withTelBuf m d s) = telTooShort s ∧ sliceTooLong (withTelBuf m d s) = sliceTooLong s :=
  ⟨rfl, rfl, rfl, rfl, rfl, rfl, rfl⟩

/-- The other TEL_BUF holds the same telegram. -/
abbrev SameTelegram (m : Memory) (d : Nat) (s : State) : Prop :=
  ∀ k < s.telLen.toNat, telByte (withTelBuf m d s) k = telByte s k

/-! The operations that read no telegram. -/

@[simp] theorem finish_withTelBuf (e : ErrKind) (c : Detail) (m : Memory) (d : Nat) (s : State) :
    finish e c (withTelBuf m d s) = withTelBuf m d (finish e c s) := rfl

@[simp] theorem clearRecord_withTelBuf (m : Memory) (d : Nat) (s : State) :
    clearRecord (withTelBuf m d s) = withTelBuf m d (clearRecord s) := rfl

@[simp] theorem clearKeyIn_withTelBuf (m : Memory) (d : Nat) (s : State) :
    clearKeyIn (withTelBuf m d s) = withTelBuf m d (clearKeyIn s) := rfl

@[simp] theorem installKey_withTelBuf (m : Memory) (d : Nat) (s : State) :
    installKey (withTelBuf m d s) = withTelBuf m d (installKey s) := rfl

@[simp] theorem storeDerivedIv_withTelBuf (m : Memory) (d : Nat) (s : State) :
    storeDerivedIv (withTelBuf m d s) = withTelBuf m d (storeDerivedIv s) := by unfold storeDerivedIv; rfl

@[simp] theorem ivOperand_withTelBuf (src : IvSrc) (m : Memory) (d : Nat) (s : State) :
    ivOperand src (withTelBuf m d s) = ivOperand src s := by cases src <;> rfl

@[simp] theorem attempt_withTelBuf (ct : List Byte) (iv : Block) (m : Memory) (d : Nat) (s : State) :
    attempt ct iv (withTelBuf m d s) = attempt ct iv s := rfl

@[simp] theorem afterAttempt_withTelBuf (ct : List Byte) (m : Memory) (d : Nat) (s : State) :
    afterAttempt ct (withTelBuf m d s) = withTelBuf m d (afterAttempt ct s) := by
  unfold afterAttempt
  split
  · rfl
  · rfl

@[simp] theorem commitPlaintext_withTelBuf (pt : List Byte) (m : Memory) (d : Nat) (s : State) :
    commitPlaintext pt (withTelBuf m d s) = withTelBuf m d (commitPlaintext pt s) := rfl

@[simp] theorem discardPlaintext_withTelBuf (m : Memory) (d : Nat) (s : State) :
    discardPlaintext (withTelBuf m d s) = withTelBuf m d (discardPlaintext s) := rfl

@[simp] theorem setOutcome_withTelBuf (o : OutcomeKind) (a b : Cause) (m : Memory) (d : Nat) (s : State) :
    setOutcome o a b (withTelBuf m d s) = withTelBuf m d (setOutcome o a b s) := rfl

/-- The attempts on a given ciphertext read no telegram (R172). -/
theorem twoAttempts_withTelBuf (ct : List Byte) (m : Memory) (d : Nat) (s : State) :
    twoAttempts ct (withTelBuf m d s) = withTelBuf m d (twoAttempts ct s) := by
  simp only [twoAttempts, attempt_withTelBuf, withTelBuf_fields]
  split
  · simp
  · simp only [fallbackAttempt, afterAttempt_withTelBuf, attempt_withTelBuf]
    split
    · simp
    · simp

/-! The operations that read the telegram. -/

/-- A slice inside the telegram is the same (R12). -/
theorem telSlice_withTelBuf {m : Memory} {d : Nat} {s : State} (h : SameTelegram m d s) {off len : Nat}
    (hlen : off + len ≤ s.telLen.toNat) : telSlice (withTelBuf m d s) off len = telSlice s off len :=
  List.map_congr_left fun k hk => h (off + k) (by have := List.mem_range.1 hk; omega)

/-- The ciphertext is the same where it lies inside the telegram (R37). -/
theorem ciphertext_withTelBuf {m : Memory} {d : Nat} {s : State} (h : SameTelegram m d s)
    (hlen : s.ctOff.toNat + s.ctLen.toNat ≤ s.telLen.toNat) : ciphertext (withTelBuf m d s) = ciphertext s :=
  telSlice_withTelBuf h hlen

/-- The header of a telegram of at least 10 bytes lies inside it (R122). -/
theorem parseHeader_withTelBuf {m : Memory} {d : Nat} {s : State} (h : SameTelegram m d s)
    (hmin : 10 ≤ s.telLen.toNat) : parseHeader (withTelBuf m d s) = withTelBuf m d (parseHeader s) := by
  have hbyte (k : Nat) (hk : k < 9) : telByte (withTelBuf m d s) k = telByte s k := h k (by omega)
  have hmfield : (Vector.ofFn fun k : Fin 6 => telByte (withTelBuf m d s) (2 + k.val)) =
      Vector.ofFn fun k : Fin 6 => telByte s (2 + k.val) :=
    congrArg _ (funext fun k => hbyte _ (by omega))
  simp only [parseHeader, hmfield, hbyte 0 (by decide), hbyte 1 (by decide), hbyte 8 (by decide)]
  rfl

/-- The payload that ParseHeader describes lies inside the telegram (R122). -/
theorem payload_within {s : State} (hmin : 10 ≤ s.telLen.toNat) :
    (parseHeader s).ctOff.toNat + (parseHeader s).ctLen.toNat ≤ s.telLen.toNat := by
  simp only [parseHeader_fields]
  bv_omega

/-! The commands. -/

theorem parse_withTelBuf {m : Memory} {d : Nat} {s : State} (h : SameTelegram m d s) :
    parse (withTelBuf m d s) = withTelBuf m d (parse s) := by
  simp only [parse, withTelBuf_fields]
  split_ifs with _ hshort
  · rfl
  · rfl
  · have hmin : 10 ≤ s.telLen.toNat := Nat.not_lt.1 (mt (telTooShort_iff s).2 hshort)
    rw [parseHeader_withTelBuf h hmin]
    rfl

theorem deriveIv_withTelBuf (m : Memory) (d : Nat) (s : State) :
    deriveIv (withTelBuf m d s) = withTelBuf m d (deriveIv s) := by
  simp only [deriveIv, withTelBuf_fields, storeDerivedIv_withTelBuf]
  split_ifs
  · rfl
  · rfl

theorem decryptSlice_withTelBuf (src : IvSrc) {m : Memory} {d : Nat} {s : State}
    (hct : ciphertext (withTelBuf m d s) = ciphertext s) :
    decryptSlice src (withTelBuf m d s) = withTelBuf m d (decryptSlice src s) := by
  simp only [decryptSlice, hct, ivOperand_withTelBuf, attempt_withTelBuf]
  split
  · simp [endOk]
  · simp [raiseError]

theorem decrypt_withTelBuf (src : IvSrc) {m : Memory} {d : Nat} {s : State} (h : SameTelegram m d s) :
    decrypt src (withTelBuf m d s) = withTelBuf m d (decrypt src s) := by
  simp only [decrypt, withTelBuf_fields]
  split_ifs with _ hrange
  · rfl
  · rfl
  · rw [Bool.or_eq_true, not_or] at hrange
    have hlen := Nat.not_lt.1 (mt (sliceTooLong_iff s).2 hrange.2)
    exact decryptSlice_withTelBuf src (ciphertext_withTelBuf h hlen)

theorem parseAndDecrypt_withTelBuf {m : Memory} {d : Nat} {s : State} (h : SameTelegram m d s)
    (hmin : 10 ≤ s.telLen.toNat) : parseAndDecrypt (withTelBuf m d s) = withTelBuf m d (parseAndDecrypt s) := by
  have hsame : SameTelegram m d (storeDerivedIv (parseHeader s)) := by
    intro k hk
    rw [← storeDerivedIv_withTelBuf, ← parseHeader_withTelBuf h hmin]
    simpa using h k (by simpa using hk)
  have hct := ciphertext_withTelBuf hsame (by simpa using payload_within hmin)
  rw [parseAndDecrypt_eq, parseAndDecrypt_eq, parseHeader_withTelBuf h hmin, storeDerivedIv_withTelBuf, hct,
    twoAttempts_withTelBuf]

theorem decryptTelegram_withTelBuf {m : Memory} {d : Nat} {s : State} (h : SameTelegram m d s) :
    decryptTelegram (withTelBuf m d s) = withTelBuf m d (decryptTelegram s) := by
  simp only [decryptTelegram, withTelBuf_fields]
  split_ifs with _ _ hshort
  · rfl
  · rfl
  · rfl
  · have hmin : 10 ≤ s.telLen.toNat := Nat.not_lt.1 (mt (telTooShort_iff s).2 hshort)
    rw [parseAndDecrypt_withTelBuf h hmin]
    rfl

theorem loadKey_withTelBuf (m : Memory) (d : Nat) (s : State) :
    loadKey (withTelBuf m d s) = withTelBuf m d (loadKey s) := by
  simp only [loadKey, withTelBuf_fields]
  split_ifs
  · rfl
  · rfl
  · rfl

theorem complete_instr_withTelBuf (i : Instr) {m : Memory} {d : Nat} {s : State} (h : SameTelegram m d s) :
    complete (.instr i) (withTelBuf m d s) = withTelBuf m d (complete (.instr i) s) := by
  cases i with
  | parse => exact parse_withTelBuf h
  | deriveIv => exact deriveIv_withTelBuf m d s
  | decrypt src => exact decrypt_withTelBuf src h
  | decryptTelegram => exact decryptTelegram_withTelBuf h
  | loadKey => exact loadKey_withTelBuf m d s

/-- Settles O28: every command is its completion, the same with both buffers (`complete_instr_withTelBuf`). -/
theorem commandsReadOnlyTheTelegram : Obligations.CommandsReadOnlyTheTelegram := by
  intro i s t m d h ht
  rw [exec_eq_complete] at ht ⊢
  cases ht
  exact congrArg _ (complete_instr_withTelBuf i h)

end Sys2Proof.Machine
end

section
/-! The CMD word (30_encoding.md rules R90 to R94): a word decodes to a command exactly when it is the command's encoding,
and the match and mask table selects exactly these words. What decoding gives a word by its fields as numbers, and what the
completion of an illegal word does, follow from that. -/

namespace Sys2Proof.Machine

/-! The words without a reserved bit. -/

/-- A word is its bits under a mask and its bits outside it. -/
theorem and_or_and_not (w m : Word) : w &&& m ||| w &&& ~~~m = w := by
  rw [← BitVec.and_or_distrib_left, BitVec.or_not_self, BitVec.and_allOnes]

theorem opOf_toNat (w : Word) : (opOf w).toNat = w.toNat % 16 := by simp [opOf]

/-- Bits 3:0 of a word are its OP (R91). -/
theorem and_opMask (w : Word) : w &&& 0x0000000F = (opOf w).setWidth 32 := by
  apply BitVec.eq_of_toNat_eq
  rw [BitVec.toNat_and, BitVec.toNat_setWidth, opOf_toNat, Nat.mod_eq_of_lt (by omega)]
  exact Nat.and_two_pow_sub_one_eq_mod w.toNat 4

/-- Bit 8 of a word is its IVSRC (R91). -/
theorem and_ivSrcMask (w : Word) : w &&& 0x00000100 = if ivSrcOf w = .zeroIv then 0x00000100 else 0 := by
  have hbit : ivSrcOf w = .zeroIv ↔ w.getLsbD 8 = true := by simp [ivSrcOf]
  simp only [hbit]
  exact BitVec.and_twoPow w 8

/-- The word of an OP and an IVSRC, with no reserved bit set (R91): IVSRC stands in the word of DECRYPT alone. -/
def wordOf (op : BitVec 4) (src : IvSrc) : Word :=
  op.setWidth 32 ||| if op = 0x3 ∧ src = .zeroIv then 0x00000100 else 0

/-- The bits of a word that are not reserved for its OP are the word of its fields. -/
theorem and_allowedBits (w : Word) : w &&& allowedBits (opOf w) = wordOf (opOf w) (ivSrcOf w) := by
  by_cases hop : opOf w = 0x3
  · have hmask : allowedBits (opOf w) = 0x0000000F ||| 0x00000100 := by rw [hop]; decide
    rw [hmask, BitVec.and_or_distrib_left, and_opMask, and_ivSrcMask]
    simp only [wordOf, hop, true_and]
  · have hmask : allowedBits (opOf w) = 0x0000000F := if_neg hop
    rw [hmask, and_opMask, wordOf, if_neg fun h => hop h.1]
    exact BitVec.or_zero.symm

/-- The word of the fields that name a command is the command's encoding (R90, R93). -/
theorem wordOf_eq_encode {op : BitVec 4} {src : IvSrc} : ∀ i ∈ instrOf op src, wordOf op src = encode i := by
  cases src <;> revert op <;> decide

/-! Decoding. -/

theorem decode_encode (i : Instr) : decode (encode i) = .instr i := by
  cases i with
  | parse => exact decode_parse
  | deriveIv => exact decode_deriveIv
  | decrypt src =>
    cases src with
    | ivReg => exact decode_decrypt_ivReg
    | zeroIv => exact decode_decrypt_zeroIv
  | decryptTelegram => exact decode_decryptTelegram
  | loadKey => exact decode_loadKey

/-- A word that decodes to a command has no bit but those of its fields, which are the command's encoding (R92, R93). -/
theorem decode_eq_instr_iff {w : Word} {i : Instr} : decode w = .instr i ↔ w = encode i := by
  refine ⟨fun h => ?_, fun h => h ▸ decode_encode i⟩
  obtain ⟨hi, hreserved⟩ := decode_instr h
  calc w = w &&& allowedBits (opOf w) ||| w &&& ~~~(allowedBits (opOf w)) := (and_or_and_not w _).symm
    _ = w &&& allowedBits (opOf w) := by rw [hreserved]; exact BitVec.or_zero
    _ = wordOf (opOf w) (ivSrcOf w) := and_allowedBits w
    _ = encode i := wordOf_eq_encode i hi

/-! The match and mask table. -/

theorem selects_exact (p w : Word) : CmdRow.selects ⟨p, 0xFFFFFFFF⟩ w = true ↔ w = p := by
  have hmask : (0xFFFFFFFF : Word) = BitVec.allOnes 32 := by decide
  rw [CmdRow.selects, beq_iff_eq, hmask, BitVec.and_allOnes]

/-- The row of DECRYPT leaves bit 8 open, so it selects two words (R93). -/
theorem selects_decrypt (w : Word) :
    CmdRow.selects ⟨0x00000003, 0xFFFFFEFF⟩ w = true ↔ w = 0x00000003 ∨ w = 0x00000103 := by
  rw [CmdRow.selects, beq_iff_eq]
  constructor
  · intro h
    have hsplit := and_or_and_not w 0x00000100
    rw [and_ivSrcMask, show ~~~(0x00000100 : Word) = 0xFFFFFEFF by decide, h] at hsplit
    split at hsplit
    · exact .inr hsplit.symm
    · exact .inl hsplit.symm
  · rintro (rfl | rfl)
    · decide
    · decide

theorem cmdWellFormed_iff (w : Word) : cmdWellFormed w = true ↔ ∃ i, w = encode i := by
  simp only [cmdWellFormed, cmdRows, List.any_cons, List.any_nil, Bool.or_eq_true, selects_exact, selects_decrypt,
    Bool.false_eq_true, or_false]
  constructor
  · rintro (h | h | (h | h) | h | h)
    · exact ⟨.parse, h⟩
    · exact ⟨.deriveIv, h⟩
    · exact ⟨.decrypt .ivReg, h⟩
    · exact ⟨.decrypt .zeroIv, h⟩
    · exact ⟨.decryptTelegram, h⟩
    · exact ⟨.loadKey, h⟩
  · rintro ⟨i, rfl⟩
    rcases i with _ | _ | (_ | _) | _ | _ <;> decide

/-- Settles O2: decoding gives a command exactly for its encoding (`decode_eq_instr_iff`), and the encodings are the words
that the table's rows select (`cmdWellFormed_iff`). -/
theorem onlyTheTablesWordsNameCommands : Obligations.OnlyTheTablesWordsNameCommands := by
  refine ⟨decode_encode, fun w i => decode_eq_instr_iff.1, fun w => ?_⟩
  simp only [cmdWellFormed_iff, decode_eq_instr_iff]

/-- Settles O1: six words are encodings, and the other six are evaluated. -/
theorem tableWordsDecode : Obligations.TableWordsDecode := by
  refine ⟨decode_parse, decode_deriveIv, decode_decrypt_ivReg, decode_decrypt_zeroIv, decode_decryptTelegram,
    decode_loadKey, ?_⟩
  decide

/-! Decoding by the fields as numbers. -/

/-- The reserved OP values (R90). -/
theorem instrOf_eq_none_iff (op : BitVec 4) (src : IvSrc) : instrOf op src = none ↔ op.toNat = 0 ∨ 6 ≤ op.toNat := by
  cases src <;> revert op <;> decide

/-- A word is rejected for its OP whatever its other bits are (R92). -/
theorem decode_eq_badOpcode_iff {w : Word} : decode w = .badOpcode ↔ w.toNat % 16 = 0 ∨ 6 ≤ w.toNat % 16 := by
  rw [← opOf_toNat, ← instrOf_eq_none_iff _ (ivSrcOf w), decode]
  cases instrOf (opOf w) (ivSrcOf w) with
  | none => simp
  | some i => simp only [reduceCtorEq, iff_false]; split <;> simp

/-- A bit of the word is set that its OP reserves: one of bits 7:4 or 31:9, or bit 8 for an OP other than 3 (R91). -/
abbrev ReservedBitSet (w : Word) : Prop :=
  w.toNat / 16 % 16 ≠ 0 ∨ w.toNat / 512 ≠ 0 ∨ (w.toNat % 16 ≠ 3 ∧ w.toNat / 256 % 2 = 1)

theorem encode_no_reservedBitSet (i : Instr) : ¬ ReservedBitSet (encode i) := by
  rcases i with _ | _ | (_ | _) | _ | _ <;> decide

/-- A legal OP with a bit reserved for it is neither of the other two results (R92). -/
theorem decode_eq_reservedBits {w : Word} (hlo : 1 ≤ w.toNat % 16) (hhi : w.toNat % 16 ≤ 5) (h : ReservedBitSet w) :
    decode w = .reservedBits := by
  cases hd : decode w with
  | instr i => exact absurd (decode_eq_instr_iff.1 hd ▸ h) (encode_no_reservedBitSet i)
  | badOpcode => have := decode_eq_badOpcode_iff.1 hd; omega
  | reservedBits => rfl

/-- A word with a legal OP and no bit reserved for it is the encoding of a command: its number is OP, and for DECRYPT 256 more
where bit 8 is set (R91, R93). -/
theorem eq_encode_of_legal {w : Word} (hlo : 1 ≤ w.toNat % 16) (hhi : w.toNat % 16 ≤ 5) (h : ¬ ReservedBitSet w) :
    ∃ i, w = encode i := by
  have hword (n : Nat) (hn : w.toNat = n) : w = BitVec.ofNat 32 n := by rw [← hn, BitVec.ofNat_toNat, BitVec.setWidth_eq]
  have hcases : w.toNat = 1 ∨ w.toNat = 2 ∨ w.toNat = 3 ∨ w.toNat = 0x103 ∨ w.toNat = 4 ∨ w.toNat = 5 := by omega
  rcases hcases with hn | hn | hn | hn | hn | hn
  · exact ⟨.parse, hword 1 hn⟩
  · exact ⟨.deriveIv, hword 2 hn⟩
  · exact ⟨.decrypt .ivReg, hword 3 hn⟩
  · exact ⟨.decrypt .zeroIv, hword 0x103 hn⟩
  · exact ⟨.decryptTelegram, hword 4 hn⟩
  · exact ⟨.loadKey, hword 5 hn⟩

/-- Settles O3: a reserved OP and a reserved bit by their lemmas; a word with neither is the encoding of a command, whose
fields name it. -/
theorem decodeTestsOpcodeThenReservedBits : Obligations.DecodeTestsOpcodeThenReservedBits := by
  intro w op reserved
  refine ⟨decode_eq_badOpcode_iff.2, fun ⟨hlo, hhi, h⟩ => decode_eq_reservedBits hlo hhi h, fun ⟨hlo, hhi, h⟩ => ?_⟩
  obtain ⟨i, rfl⟩ := eq_encode_of_legal hlo hhi h
  rcases i with _ | _ | (_ | _) | _ | _ <;> exact decode_encode _

/-! The completion of a word. -/

/-- Where the completion of a word is the next step, the step is the completion of what the word decodes to (R329). -/
theorem step_of_completes {s : State} {w : Word} (h : s.Completes w) : step s = .next (complete (decode w) s) := by
  obtain ⟨hb, hr, hl, hp⟩ := h
  have ha := (nextAgent_engine_iff s).2 ⟨hb, hr, hl⟩
  simp only [step, ha, hp]
  cases decode w with
  | instr i => exact exec_eq_complete i s
  | badOpcode => rfl
  | reservedBits => rfl

/-- Settles O4: the word decodes to its request error (`decodeTestsOpcodeThenReservedBits`), which is all its completion
does. -/
theorem illegalWordsEndInRequestErrors : Obligations.IllegalWordsEndInRequestErrors := by
  intro s w hc
  refine ⟨fun hop => ?_, fun ⟨hlo, hhi, hreserved⟩ => ?_⟩
  · rw [step_of_completes hc, decode_eq_badOpcode_iff.2 hop]
    rfl
  · rw [step_of_completes hc, decode_eq_reservedBits hlo hhi hreserved]
    rfl

end Sys2Proof.Machine
end

section
/-! The pseudo-instruction `wait` (30_encoding.md rule R98): a read of STATUS in flight shows BUSY = 1, so the wait repeats
until the completion, which leaves the host's list as it is, and then ends with the next read. -/

namespace Sys2Proof.Machine

/-! A control register read while BUSY = 1. -/

/-- The mix of exact and free bits of R332, byte by byte. -/
theorem byteOf_mix (v free exact : Word) {j : Nat} (hj : j < 4) :
    byteOf (v &&& exact ||| free &&& ~~~exact) j =
      byteOf v j &&& byteOf exact j ||| byteOf free j &&& ~~~(byteOf exact j) := by
  have hnot : byteOf (~~~exact) j = ~~~(byteOf exact j) := by
    apply BitVec.eq_of_getLsbD_eq
    intro i hi
    have hbit : 8 * j + i < 32 := by omega
    simp [byteOf, hi, hbit]
  simp only [byteOf, BitVec.extractLsb'_or, BitVec.extractLsb'_and] at hnot ⊢
  rw [hnot]

/-- A read of a control register while BUSY = 1 answers its exact bits, the others from a free draw (R332). -/
theorem memRead_ctl_busy {k : Nat} {r : CtlReg} {a : BitVec 12} {s : State} (ha : a.toNat = 4 * k)
    (hr : ctlRegAt k = some r) (hb : s.busy = true) : memRead a .w32 s =
      (⟨false, ctlWord s r &&& r.exactBits ||| Config.freeWord s.freeDraws &&& ~~~r.exactBits⟩, useDraw s) := by
  have hdata : readData s (4 * k) 4 =
      ctlWord s r &&& r.exactBits ||| Config.freeWord s.freeDraws &&& ~~~r.exactBits := by
    have hbyte (j : Nat) (hj : j < 4) : readAt s (4 * k) j =
        byteOf (ctlWord s r &&& r.exactBits ||| Config.freeWord s.freeDraws &&& ~~~r.exactBits) j := by
      simp only [readAt, locate_ctl hr hj, readLoc, hb, if_true, locByte, Loc.exactBits, byteOf_mix _ _ _ hj]
    rw [← leBytes_byteOf (_ ||| _), ← hbyte 0 (by decide), ← hbyte 1 (by decide), ← hbyte 2 (by decide),
      ← hbyte 3 (by decide)]
    rfl
  simp only [memRead, ha, widthBytes, legal_ctl hr, hdata, hb, if_true]

/-- BUSY is one of the exact bits of STATUS (R332): a wait that reads it in flight repeats, and nothing of the block changes
(R98). -/
theorem perform_wait_busy {s : State} (hr : s.inReset = false) (hb : s.busy = true) :
    ∃ r, perform .wait s = { useDraw s with host := .wait :: s.host, responses := s.responses ++ [r] } := by
  have hread := memRead_ctl_busy (k := 1) (a := 0x004) rfl rfl hb
  have hbit : (memRead 0x004 .w32 s).1.data.getLsbD 0 = true := by
    have hstatus := (statusWord_bits s).1.trans hb
    simp only [hread, ctlWord, BitVec.getLsbD_or, BitVec.getLsbD_and, hstatus]
    rfl
  refine ⟨(memRead 0x004 .w32 s).1, ?_⟩
  rw [perform_wait hr, if_pos hbit, hread]

/-! What a completion leaves. -/

/-- The reset input and the host's list, which are outside the block, agree. -/
abbrev SameOutside (s t : State) : Prop := t.inReset = s.inReset ∧ t.host = s.host

theorem afterAttempt_outside (ct : List Byte) (s : State) : SameOutside s (afterAttempt ct s) := by
  unfold afterAttempt
  split
  · exact ⟨rfl, rfl⟩
  · exact ⟨rfl, rfl⟩

theorem twoAttempts_outside (ct : List Byte) (s : State) : SameOutside s (twoAttempts ct s) := by
  have h := afterAttempt_outside ct s
  have h' := afterAttempt_outside ct (afterAttempt ct s)
  simp only [SameOutside, h] at h'
  rcases twoAttempts_cases ct s with ⟨_, _, hs⟩ | ⟨_, _, _, _, _, hs⟩ | ⟨_, _, _, _, _, _, hs⟩
  · exact hs ▸ h
  · exact hs ▸ h'
  · exact hs ▸ h'

/-- The second state comes from the first by the end of a command: BUSY is 0, and what is outside the block is the same. -/
abbrev EndedFrom (s t : State) : Prop := t.busy = false ∧ SameOutside s t

theorem parse_ends (s : State) : EndedFrom s (parse s) := by
  rcases parse_cases s with ⟨_, hs⟩ | ⟨_, _, hs⟩ | ⟨_, _, hs⟩
  · exact hs ▸ ⟨rfl, rfl, rfl⟩
  · exact hs ▸ ⟨rfl, rfl, rfl⟩
  · exact hs ▸ ⟨rfl, rfl, rfl⟩

theorem deriveIv_ends (s : State) : EndedFrom s (deriveIv s) := by
  rcases deriveIv_cases s with ⟨_, hs⟩ | ⟨_, hs⟩
  · exact hs ▸ ⟨rfl, rfl, rfl⟩
  · exact hs ▸ ⟨rfl, rfl, rfl⟩

theorem decryptSlice_ends (src : IvSrc) (s : State) : EndedFrom s (decryptSlice src s) := by
  have h := afterAttempt_outside (ciphertext s) s
  rcases decryptSlice_cases src s with ⟨_, _, hs⟩ | ⟨_, _, _, hs⟩
  · exact hs ▸ ⟨rfl, h⟩
  · exact hs ▸ ⟨rfl, h⟩

theorem decrypt_ends (src : IvSrc) (s : State) : EndedFrom s (decrypt src s) := by
  rcases decrypt_cases src s with ⟨_, hs⟩ | ⟨_, _, hs⟩ | ⟨_, _, _, hs⟩
  · exact hs ▸ ⟨rfl, rfl, rfl⟩
  · exact hs ▸ ⟨rfl, rfl, rfl⟩
  · exact hs ▸ decryptSlice_ends src s

theorem decryptTelegram_ends (s : State) : EndedFrom s (decryptTelegram s) := by
  have h := twoAttempts_outside (ciphertext (storeDerivedIv (parseHeader s))) (storeDerivedIv (parseHeader s))
  rcases decryptTelegram_cases s with ⟨_, hs⟩ | ⟨_, _, hs⟩ | ⟨_, _, _, hs⟩ | ⟨_, _, _, hs⟩
  · exact hs ▸ ⟨rfl, rfl, rfl⟩
  · exact hs ▸ ⟨rfl, rfl, rfl⟩
  · exact hs ▸ ⟨rfl, rfl, rfl⟩
  · exact hs ▸ ⟨rfl, h⟩

theorem loadKey_ends (s : State) : EndedFrom s (loadKey s) := by
  rcases loadKey_cases s with ⟨_, hs⟩ | ⟨_, _, hs⟩ | ⟨_, _, hs⟩
  · exact hs ▸ ⟨rfl, rfl, rfl⟩
  · exact hs ▸ ⟨rfl, rfl, rfl⟩
  · exact hs ▸ ⟨rfl, rfl, rfl⟩

/-- Every completion clears BUSY and leaves what is outside the block (R329). -/
theorem complete_ends (c : Decoded) (s : State) : EndedFrom s (complete c s) := by
  cases c with
  | instr i =>
    cases i with
    | parse => exact parse_ends s
    | deriveIv => exact deriveIv_ends s
    | decrypt src => exact decrypt_ends src s
    | decryptTelegram => exact decryptTelegram_ends s
    | loadKey => exact loadKey_ends s
  | badOpcode => exact ⟨rfl, rfl, rfl⟩
  | reservedBits => exact ⟨rfl, rfl, rfl⟩

/-! The wait. -/

theorem run_step {s t : State} (h : step s = .next t) (k : Nat) : core.run (k + 1) s = core.run k t := by
  simp only [Host.Core.run, core, h]

/-- A wait of an idle block takes one step (R98). -/
theorem step_wait_idle {s : State} {rest : List HostEvent} (hb : s.busy = false) (hr : s.inReset = false)
    (hs : s.host = .wait :: rest) : step s = .next { s with
      host := rest, lag := s.lag - 1, responses := s.responses ++ [⟨false, statusWord s⟩] } := by
  have ha : nextAgent s = .host := if_neg fun h => Bool.eq_false_iff.1 hb h.1
  exact (step_host ha hs).trans (congrArg _ (perform_wait_idle (s := { tick s with host := rest }) hr hb))

/-- A wait while the command's latency runs takes one cycle of it, and stays in the host's list (R98, R329). -/
theorem step_wait_busy {s : State} {rest : List HostEvent} {n : Nat} (hb : s.busy = true) (hr : s.inReset = false)
    (hs : s.host = .wait :: rest) (hl : s.lag = n + 1) :
    ∃ t, step s = .next t ∧ t.busy = true ∧ t.pending = s.pending ∧ t.inReset = false ∧ t.host = .wait :: rest ∧
      t.lag = n := by
  have ha : nextAgent s = .host := if_neg fun h => by simp [hl] at h
  obtain ⟨r, ht⟩ := perform_wait_busy (s := { tick s with host := rest }) hr hb
  exact ⟨_, (step_host ha hs).trans (congrArg _ ht), hb, rfl, hr, rfl, by simp [hl]⟩

/-- Settles O55, by induction on the cycles left: the wait repeats while they pass (`step_wait_busy`); then the completion
clears BUSY (`complete_ends`), and the wait ends (`step_wait_idle`). -/
theorem waitEndsAfterTheCompletion : Obligations.WaitEndsAfterTheCompletion := by
  intro s rest hb hp hr hs
  induction hl : s.lag generalizing s with
  | zero =>
    obtain ⟨w, hw⟩ := Option.isSome_iff_exists.1 hp
    obtain ⟨hb', hr', hs'⟩ := complete_ends (decode w) s
    rw [run_step (step_of_completes ⟨hb, hr, hl, hw⟩), run_step (step_wait_idle hb' (hr'.trans hr) (hs'.trans hs))]
    exact ⟨_, rfl, hb', rfl, List.getLast?_concat ..⟩
  | succ n ih =>
    obtain ⟨t, ht, hb', hp', hr', hs', hl'⟩ := step_wait_busy hb hr hs hl
    rw [run_step ht]
    exact ih t hb' (hp' ▸ hp) hr' hs' hl'

end Sys2Proof.Machine
end

section
/-! PARSE (41_parse.md): the whole next state of each of its ends, and what the host reads of the record that it leaves. -/

namespace Sys2Proof.Machine

/-! The end that the length of the telegram selects (R121). -/

theorem parse_of_too_long {s : State} (h : s.telMax.toNat < s.telLen.toNat) : parse s = raiseRequest .range s :=
  if_pos ((telTooLong_iff s).2 h)

theorem parse_of_too_short {s : State} (hmax : s.telLen.toNat ≤ s.telMax.toNat) (h : s.telLen.toNat < 10) :
    parse s = raiseError .malformedTelegram (clearRecord s) :=
  (if_neg (mt (telTooLong_iff s).1 (Nat.not_lt.2 hmax))).trans (if_pos ((telTooShort_iff s).2 h))

theorem parse_of_length_ok {s : State} (hmin : 10 ≤ s.telLen.toNat) (hmax : s.telLen.toNat ≤ s.telMax.toNat) :
    parse s = endOk (parseHeader s) :=
  (if_neg (mt (telTooLong_iff s).1 (Nat.not_lt.2 hmax))).trans
    (if_neg (mt (telTooShort_iff s).1 (Nat.not_lt.2 hmin)))

/-! The record of ParseHeader (R122). -/

theorem parseHeader_mField (s : State) : (parseHeader s).mField =
    #v[telByte s 2, telByte s 3, telByte s 4, telByte s 5, telByte s 6, telByte s 7] := rfl

/-- CT_LEN does not wrap: a telegram has at least the 9 bytes of the header (R122). -/
theorem parseHeader_ctLen {s : State} (hmin : 10 ≤ s.telLen.toNat) :
    (parseHeader s).ctLen = BitVec.ofNat 16 (s.telLen.toNat - 9) := by
  simp only [parseHeader_fields]
  bv_omega

/-- Settles O10: ParseHeader and the end without an error, with MFIELD byte by byte and CT_LEN as a number. -/
theorem parseCopiesTheHeader : Obligations.ParseCopiesTheHeader := by
  intro s hmin hmax
  rw [exec_eq_complete, complete, parse_of_length_ok hmin hmax, ← parseHeader_mField, ← parseHeader_ctLen hmin]
  rfl

/-- Settles O11: each bad length selects its end, which writes the fields that the statement lists. -/
theorem parseRefusesBadLengths : Obligations.ParseRefusesBadLengths := by
  intro s
  refine ⟨fun hlong => ?_, fun hmax hshort => ?_⟩
  · rw [exec_eq_complete, complete, parse_of_too_long hlong]
    rfl
  · rw [exec_eq_complete, complete, parse_of_too_short hmax hshort]
    rfl

/-! PARSE as a function of the header (R128). -/

/-- A second PARSE finds the same length and the same header, and the registers as the first left them. -/
theorem parse_parse (s : State) : parse (parse s) = parse s := by
  rcases parse_cases s with ⟨hlong, hs⟩ | ⟨hmax, hshort, hs⟩ | ⟨hmax, hmin, hs⟩
  · rw [hs]
    exact parse_of_too_long hlong
  · rw [hs]
    exact parse_of_too_short hmax hshort
  · rw [hs]
    exact parse_of_length_ok hmin hmax

/-- The record and the status fields that PARSE and the decryptions write agree. -/
abbrev SameRecordAndStatus (t v : State) : Prop :=
  SameRecord t v ∧ t.ptValid = v.ptValid ∧ t.ptLen = v.ptLen ∧ t.outcome = v.outcome ∧ t.causeA = v.causeA ∧
    t.causeB = v.causeB ∧ t.err = v.err ∧ t.detail = v.detail

/-- The MFIELD of ParseHeader is a function of its six bytes (R122). -/
theorem parseHeader_mField_congr {s u : State} (h : ∀ k < 9, telByte s k = telByte u k) :
    (parseHeader s).mField = (parseHeader u).mField :=
  congrArg Vector.ofFn (funext fun k => h (2 + k.val) (by omega))

/-- A length within TEL_MAX selects the same end in both states, and what it writes is constant or taken from TEL_LEN and
the header (R122, R129). -/
theorem parse_congr {s u : State} (hlen : s.telLen = u.telLen) (hcap : s.telMax = u.telMax)
    (hmax : s.telLen.toNat ≤ s.telMax.toNat) (h : ∀ k < 9, telByte s k = telByte u k) :
    SameRecordAndStatus (parse s) (parse u) := by
  have hmax' : u.telLen.toNat ≤ u.telMax.toNat := hlen ▸ hcap ▸ hmax
  rcases Nat.lt_or_ge s.telLen.toNat 10 with hshort | hmin
  · rw [parse_of_too_short hmax hshort, parse_of_too_short hmax' (hlen ▸ hshort)]
    simp [SameRecordAndStatus, SameRecord, raiseError]
  · rw [parse_of_length_ok hmin hmax, parse_of_length_ok (hlen ▸ hmin) hmax']
    have hmfield := parseHeader_mField_congr h
    simp only [parseHeader_fields] at hmfield
    simp [SameRecordAndStatus, SameRecord, endOk, hlen, hmfield, h 0, h 1, h 8]

/-- Settles O12: a second PARSE by `parse_parse`, two states with the same header by `parse_congr`. -/
theorem parseIsAPureFunctionOfTheHeader : Obligations.ParseIsAPureFunctionOfTheHeader := by
  refine ⟨fun s t ht => ?_, fun s u t v hlen hcap hmax h ht hv => ?_⟩
  · rw [exec_eq_complete] at ht ⊢
    cases ht
    exact congrArg _ (parse_parse s)
  · rw [exec_eq_complete] at ht hv
    cases ht
    cases hv
    exact parse_congr hlen hcap hmax h

/-- Settles O13: PARSE ends with BUSY = 0, so each read answers its register's word (`memRead_ctl`), which is a view of the
MFIELD of ParseHeader. -/
theorem viewsAfterParse : Obligations.ViewsAfterParse := by
  intro s hmin hmax
  refine ⟨endOk (parseHeader s), by rw [exec_eq_complete, complete, parse_of_length_ok hmin hmax], ?_⟩
  exact ⟨memRead_ctl (k := 10) rfl rfl rfl, memRead_ctl (k := 11) rfl rfl rfl, memRead_ctl (k := 12) rfl rfl rfl⟩

end Sys2Proof.Machine
end

section
/-! DECRYPT_TELEGRAM against the commands step by step (70_reset_and_hazards.md rule R327). DECRYPT with the IV register and,
after its failure, DECRYPT with the zero IV make the two attempts of DECRYPT_TELEGRAM on the same ciphertext with the same
draws, wherever DECRYPT passes its request checks; and PARSE and DERIVE_IV lead to such a state, also for a telegram too
short to be parsed. -/

namespace Sys2Proof.Machine

/-! What R327 compares. -/

/-- The record, IV and the number of ENGINE_FAULT draws agree: what a decryption leaves as it is, and what it advances. -/
abbrev SameRecordAndDraws (s t : State) : Prop := SameRecord s t ∧ s.iv = t.iv ∧ s.faultDraws = t.faultDraws

/-- The record, IV, the plaintext with its length and the number of ENGINE_FAULT draws agree (R327). -/
abbrev SameResult (s t : State) : Prop :=
  SameRecord s t ∧ s.iv = t.iv ∧ s.ptLen = t.ptLen ∧ s.ptValid = t.ptValid ∧
    decryptedPayload s = decryptedPayload t ∧ s.faultDraws = t.faultDraws

theorem SameResult.refl (s : State) : SameResult s s :=
  ⟨⟨rfl, rfl, rfl, rfl, rfl, rfl, rfl⟩, rfl, rfl, rfl, rfl, rfl⟩

theorem SameResult.trans {s t u : State} (h : SameResult s t) (h' : SameResult t u) : SameResult s u := by
  simpa only [SameResult, SameRecord, h] using h'

/-- ERR and DETAIL, which R327 leaves out, are all of the result that the end of a command writes. -/
theorem sameResult_finish (e : ErrKind) (d : Detail) (s : State) : SameResult s (finish e d s) := SameResult.refl s

/-! The payload (R27). -/

theorem decryptedPayload_commitPlaintext {pt : List Byte} (h : pt.length < 2 ^ 16) (s : State) :
    decryptedPayload (commitPlaintext pt s) = some pt :=
  congrArg some (map_ptByte_commitPlaintext h s)

theorem decryptedPayload_discardPlaintext (s : State) : decryptedPayload (discardPlaintext s) = none := rfl

/-- A committed plaintext is the payload whatever PT_BUF held and whichever draw its other bytes have (R175). -/
theorem commitPlaintext_sameResult {pt : List Byte} {s t : State} (hpt : pt.length < 2 ^ 16)
    (h : SameRecordAndDraws s t) : SameResult (commitPlaintext pt s) (commitPlaintext pt t) := by
  simp only [SameResult, SameRecord, decryptedPayload_commitPlaintext hpt, commitPlaintext_fields, h, and_self]

theorem discardPlaintext_sameResult {s t : State} (h : SameRecordAndDraws s t) :
    SameResult (discardPlaintext s) (discardPlaintext t) := by
  simp only [SameResult, SameRecord, decryptedPayload_discardPlaintext, discardPlaintext_fields, h, and_self]

/-! The attempts. -/

/-- The plaintext of an attempt on a slice of TEL_BUF fits PT_LEN. -/
theorem length_lt_of_attempt_ok {s t : State} {iv : Block} {pt : List Byte}
    (h : attempt (ciphertext s) iv t = .ok pt) : pt.length < 2 ^ 16 := by
  obtain ⟨_, _, _, hlen⟩ := attempt_ok h
  rw [hlen, length_ciphertext]
  exact s.ctLen.isLt

theorem afterAttempt_sameRecordAndDraws (ct : List Byte) {s t : State} (h : SameRecordAndDraws s t) :
    SameRecordAndDraws (afterAttempt ct s) (afterAttempt ct t) := by
  unfold afterAttempt
  split
  · simpa [SameRecordAndDraws, SameRecord] using h
  · exact h

/-- A completion before an attempt changes nothing that the attempt looks at (R191). -/
@[simp] theorem attempt_finish (ct : List Byte) (iv : Block) (e : ErrKind) (d : Detail) (s : State) :
    attempt ct iv (finish e d s) = attempt ct iv s := rfl

@[simp] theorem afterAttempt_finish (ct : List Byte) (e : ErrKind) (d : Detail) (s : State) :
    afterAttempt ct (finish e d s) = finish e d (afterAttempt ct s) := by
  unfold afterAttempt
  split
  · rfl
  · rfl

/-- The attempts of DECRYPT_TELEGRAM read and write nothing that the end of the command before them wrote. -/
theorem twoAttempts_finish (ct : List Byte) (e : ErrKind) (d : Detail) (s : State) :
    twoAttempts ct (finish e d s) = finish e d (twoAttempts ct s) := by
  simp only [twoAttempts, fallbackAttempt, attempt_finish, afterAttempt_finish, finish_fields]
  split
  · rfl
  · split
    · rfl
    · rfl

/-! DECRYPT with the IV register, then with the zero IV. -/

/-- The state after a failed DECRYPT with the IV register (R170). -/
def afterFirstFailure (c : Cause) (s : State) : State :=
  raiseError .decryptionFailed (setOutcome .failed c .none (discardPlaintext (afterAttempt (ciphertext s) s)))

/-- A failed DECRYPT leaves the telegram and the slice that it decrypted (R176). -/
theorem ciphertext_afterFirstFailure (c : Cause) (s : State) : ciphertext (afterFirstFailure c s) = ciphertext s := by
  unfold afterFirstFailure afterAttempt
  split
  · rfl
  · rfl

/-- After the failure of the first attempt DECRYPT with the zero IV is the fallback of DECRYPT_TELEGRAM: the next draw
decides, on the same ciphertext and key (R235). -/
theorem decryptSlice_zeroIv_sameResult (c : Cause) (s : State) :
    SameResult (fallbackAttempt (ciphertext s) c (afterAttempt (ciphertext s) s))
      (decryptSlice .zeroIv (afterFirstFailure c s)) := by
  have hdraws : SameRecordAndDraws (afterAttempt (ciphertext s) (afterAttempt (ciphertext s) s))
      (afterAttempt (ciphertext s) (afterFirstFailure c s)) :=
    afterAttempt_sameRecordAndDraws _ (by simp [SameRecordAndDraws, SameRecord, afterFirstFailure, raiseError])
  have hattempt : attempt (ciphertext s) zeroBlock (afterFirstFailure c s) =
      attempt (ciphertext s) zeroBlock (afterAttempt (ciphertext s) s) := rfl
  simp only [decryptSlice, fallbackAttempt, ivOperand, ciphertext_afterFirstFailure, hattempt]
  cases hresult : attempt (ciphertext s) zeroBlock (afterAttempt (ciphertext s) s) with
  | ok pt => exact commitPlaintext_sameResult (length_lt_of_attempt_ok hresult) hdraws
  | fail _ => exact discardPlaintext_sameResult hdraws

/-- The request checks of DECRYPT pass (R171). -/
abbrev PassesChecks (s : State) : Prop :=
  s.keyValid = true ∧ s.telLen.toNat ≤ s.telMax.toNat ∧ s.ctOff.toNat + s.ctLen.toNat ≤ s.telLen.toNat

/-- Where its request checks pass, DECRYPT is its attempt (R170). -/
theorem decrypt_of_passesChecks {s : State} (src : IvSrc) (h : PassesChecks s) : decrypt src s = decryptSlice src s := by
  obtain ⟨hkey, hmax, hslice⟩ := h
  rcases decrypt_cases src s with ⟨hno, _⟩ | ⟨_, hrange, _⟩ | ⟨_, _, _, hs⟩
  · rw [hkey] at hno
    cases hno
  · omega
  · exact hs

/-- A failed DECRYPT changes nothing that the checks of the next one look at. -/
theorem afterFirstFailure_passesChecks (c : Cause) {s : State} (h : PassesChecks s) :
    PassesChecks (afterFirstFailure c s) := by
  unfold afterFirstFailure afterAttempt
  split
  · exact h
  · exact h

/-- DECRYPT with the IV register and, where that ends with DECRYPTION_FAILED, DECRYPT with the zero IV. -/
def decryptWithFallback (s : State) : State :=
  if (decrypt .ivReg s).err = 4 then decrypt .zeroIv (decrypt .ivReg s) else decrypt .ivReg s

/-- Where the request checks pass, one or two DECRYPTs do what the two attempts of DECRYPT_TELEGRAM do (R234, R235). -/
theorem twoAttempts_sameResult {s : State} (h : PassesChecks s) :
    SameResult (twoAttempts (ciphertext s) s) (decryptWithFallback s) := by
  rw [decryptWithFallback, decrypt_of_passesChecks .ivReg h, twoAttempts]
  rcases decryptSlice_cases .ivReg s with ⟨pt, hok, hs⟩ | ⟨c, _, hfail, hs⟩
  · rw [ivOperand] at hok
    rw [hs, if_neg (by simp [endOk, ErrKind.code]), hok]
    exact sameResult_finish ..
  · rw [ivOperand] at hfail
    rw [hs, if_pos (by simp [raiseError, ErrKind.code]), hfail, ← afterFirstFailure,
      decrypt_of_passesChecks .zeroIv (afterFirstFailure_passesChecks c h)]
    exact decryptSlice_zeroIv_sameResult c s

/-! PARSE and DERIVE_IV before the attempts. -/

/-- DERIVE_IV after a failed PARSE finds no record (R129, R150). -/
theorem deriveIv_parse_of_too_short {s : State} (hmax : s.telLen.toNat ≤ s.telMax.toNat) (h : s.telLen.toNat < 10) :
    deriveIv (parse s) = raiseRequest .notParsed (raiseError .malformedTelegram (clearRecord s)) := by
  rw [parse_of_too_short hmax h]
  rfl

/-- PARSE and DERIVE_IV leave what DECRYPT_TELEGRAM makes its attempts on (R233). -/
theorem deriveIv_parse_of_length_ok {s : State} (hmin : 10 ≤ s.telLen.toNat) (hmax : s.telLen.toNat ≤ s.telMax.toNat) :
    deriveIv (parse s) = endOk (storeDerivedIv (parseHeader s)) := by
  have hparsed : (endOk (parseHeader s)).parsed = true := rfl
  rw [parse_of_length_ok hmin hmax, deriveIv, if_pos hparsed]
  unfold storeDerivedIv
  rfl

/-- The ciphertext slice after PARSE and DERIVE_IV lies inside the telegram: the payload, or nothing (R122, R129). -/
theorem deriveIv_parse_passesChecks {s : State} (hkey : s.keyValid = true) (hmax : s.telLen.toNat ≤ s.telMax.toNat) :
    PassesChecks (deriveIv (parse s)) := by
  rcases Nat.lt_or_ge s.telLen.toNat 10 with hshort | hmin
  · rw [deriveIv_parse_of_too_short hmax hshort]
    exact ⟨hkey, hmax, Nat.zero_le _⟩
  · rw [deriveIv_parse_of_length_ok hmin hmax]
    unfold storeDerivedIv
    exact ⟨hkey, hmax, payload_within hmin⟩

/-- DECRYPT_TELEGRAM gives what the two attempts give after PARSE and DERIVE_IV. A telegram too short to be parsed leaves an
empty slice, on which both attempts fail without a draw (R173). -/
theorem decryptTelegram_sameResult {s : State} (hkey : s.keyValid = true) (hmax : s.telLen.toNat ≤ s.telMax.toNat) :
    SameResult (decryptTelegram s) (twoAttempts (ciphertext (deriveIv (parse s))) (deriveIv (parse s))) := by
  rcases decryptTelegram_cases s with ⟨hno, _⟩ | ⟨_, hlong, _⟩ | ⟨_, _, hshort, hs⟩ | ⟨_, _, hmin, hs⟩
  · rw [hkey] at hno
    cases hno
  · omega
  · rw [hs, deriveIv_parse_of_too_short hmax hshort]
    exact SameResult.refl (clearRecord s)
  · rw [hs, deriveIv_parse_of_length_ok hmin hmax, parseAndDecrypt_eq, endOk, endOk, twoAttempts_finish]
    exact SameResult.refl _

/-- Settles O27: DECRYPT_TELEGRAM gives what its two attempts give after PARSE and DERIVE_IV (`decryptTelegram_sameResult`),
and there the DECRYPTs do the same (`twoAttempts_sameResult`). -/
theorem stepByStepAgreesWithDecryptTelegram : Obligations.StepByStepAgreesWithDecryptTelegram := by
  intro s s1 s2 s3 s4 t hkey hmax h1 h2 h3 h4 ht
  rw [exec_eq_complete] at h1 h2 h3 h4 ht
  cases h1
  cases h2
  cases h3
  cases ht
  have hs4 : s4 = decryptWithFallback (deriveIv (parse s)) := by
    unfold decryptWithFallback
    split at h4
    · next herr =>
      cases h4
      exact (if_pos herr).symm
    · next herr => exact h4.trans (if_neg herr).symm
  rw [hs4]
  exact (decryptTelegram_sameResult hkey hmax).trans (twoAttempts_sameResult (deriveIv_parse_passesChecks hkey hmax))

end Sys2Proof.Machine
end

section
/-! DERIVE_IV (42_derive_iv.md rules R150 to R155): the end that PARSED selects, and the derived IV as a function of MFIELD
alone. -/

namespace Sys2Proof.Machine

/-- DERIVE_IV of a parsed record (R150). -/
theorem deriveIv_of_parsed {s : State} (h : s.parsed = true) : deriveIv s = endOk (storeDerivedIv s) := if_pos h

/-- DERIVE_IV without a record (R150). -/
theorem deriveIv_of_not_parsed {s : State} (h : s.parsed = false) : deriveIv s = raiseRequest .notParsed s :=
  if_neg (Bool.eq_false_iff.1 h)

/-- The end of DERIVE_IV writes ERR, DETAIL and BUSY, not the IV that it stored (R155). -/
theorem deriveIv_iv_of_parsed {s : State} (h : s.parsed = true) : (deriveIv s).iv = derivedIv s := by
  simp [deriveIv_of_parsed h, endOk]

/-- DeriveIV reads MFIELD and nothing else of the state (R153). -/
theorem derivedIv_congr {s u : State} (h : s.mField = u.mField) : derivedIv s = derivedIv u := by
  rw [derivedIv_eq, derivedIv_eq, h]

/-- Settles O14: PARSED selects the end, and the IV that is stored is MFIELD with ten zeros (`derivedIv_eq`). -/
theorem deriveIvWritesMfieldAndZeros : Obligations.DeriveIvWritesMfieldAndZeros := by
  intro s
  refine ⟨fun hparsed => ?_, fun hparsed => ?_⟩
  · rw [exec_eq_complete, complete, deriveIv_of_parsed hparsed, storeDerivedIv, derivedIv_eq]
    rfl
  · rw [exec_eq_complete, complete, deriveIv_of_not_parsed hparsed]
    rfl

/-- Settles O15: both states end with their derived IV, which is a function of MFIELD (`derivedIv_congr`). -/
theorem sameManufacturerFieldSameIv : Obligations.SameManufacturerFieldSameIv := by
  intro s u t v hs hu hmfield ht hv
  rw [exec_eq_complete] at ht hv
  cases ht
  cases hv
  exact calc
    (deriveIv s).iv = derivedIv s := deriveIv_iv_of_parsed hs
    _ = derivedIv u := derivedIv_congr hmfield
    _ = (deriveIv u).iv := (deriveIv_iv_of_parsed hu).symm

end Sys2Proof.Machine
end

section
/-! AES-128 (43_decrypt.md rules R180 to R192): the inverse cipher inverts the forward cipher, CBC decryption chains its
blocks, and it inverts CBC encryption. Each step of a round has its own inverse: the S-boxes are checked byte by byte,
InvShiftRows permutes the positions back, InvMixColumns is the inverse matrix because `gmul` is linear in its first
argument, and AddRoundKey is its own inverse. -/

namespace Sys2Proof.Machine.Aes

/-! The S-box (R185, R186). -/

/-- The affine map of R185. -/
def affineImage (b : Byte) : Byte := b ^^^ rotl8 b 1 ^^^ rotl8 b 2 ^^^ rotl8 b 3 ^^^ rotl8 b 4 ^^^ 0x63

/-- What `affineImage` maps to a byte. -/
def affinePreimage (c : Byte) : Byte := rotl8 c 1 ^^^ rotl8 c 3 ^^^ rotl8 c 6 ^^^ 0x05

/-- Checked at each of the 256 bytes, as are the finite facts below. -/
theorem affineImage_affinePreimage : ∀ c : Byte, affineImage (affinePreimage c) = c := by decide +kernel

theorem affinePreimage_sbox_zero : affinePreimage (sbox 0) = 0 := by decide +kernel

theorem gmul_affinePreimage_sbox : ∀ a : Byte, a ≠ 0 → gmul a (affinePreimage (sbox a)) = 1 := by decide +kernel

/-- Settles O20: the byte is the preimage of the table's entry under the affine map, and it is an inverse of `a`
(`gmul_affinePreimage_sbox`). -/
theorem sboxMeetsItsDefinition : Obligations.SboxMeetsItsDefinition := by
  intro a
  refine ⟨affinePreimage (sbox a), ?_, gmul_affinePreimage_sbox a, (affineImage_affinePreimage (sbox a)).symm⟩
  rintro rfl
  exact affinePreimage_sbox_zero

/-- Settles O21, from the two tables at each of the 256 bytes. -/
theorem inverseSboxInvertsSbox : Obligations.InverseSboxInvertsSbox := by
  unfold Obligations.InverseSboxInvertsSbox
  decide +kernel

/-! `gmul` is linear in its first argument (R181). -/

theorem xor_xor_xor_cancel (a b c : Byte) : (a ^^^ c) ^^^ (b ^^^ c) = a ^^^ b := by
  rw [BitVec.xor_comm b c, BitVec.xor_assoc, ← BitVec.xor_assoc c c b, BitVec.xor_self, BitVec.zero_xor]

theorem xtime_xor (a b : Byte) : xtime (a ^^^ b) = xtime a ^^^ xtime b := by
  unfold xtime
  rw [BitVec.getLsbD_xor, BitVec.shiftLeft_xor_distrib]
  cases a.getLsbD 7 with
  | false =>
    cases b.getLsbD 7 with
    | false => rfl
    | true => exact BitVec.xor_assoc ..
  | true =>
    cases b.getLsbD 7 with
    | false =>
      show (a <<< 1 ^^^ b <<< 1) ^^^ 0x1B = (a <<< 1 ^^^ 0x1B) ^^^ b <<< 1
      ac_rfl
    | true => exact (xor_xor_xor_cancel ..).symm

/-- Every round of `gmul` is linear in the doubled byte and the sum together. -/
theorem gmulFrom_xor (c : Byte) (n : Nat) (a b p q : Byte) :
    gmulFrom c n (a ^^^ b) (p ^^^ q) = gmulFrom c n a p ^^^ gmulFrom c n b q := by
  induction n generalizing a b p q with
  | zero => rfl
  | succ n ih =>
    rw [gmulFrom, gmulFrom, gmulFrom, xtime_xor, ← ih]
    split
    · congr 1
      ac_rfl
    · rfl

theorem gmul_xor (a b c : Byte) : gmul (a ^^^ b) c = gmul a c ^^^ gmul b c := gmulFrom_xor c 8 a b 0 0

/-! InvMixColumns inverts MixColumns (R189). A byte of a column reaches the unmixed byte at the same place, or one, two
or three places before it, through four products: they sum to the byte itself, or to 0. -/

theorem mixed_products_same_place : ∀ a : Byte,
    gmul (gmul a 0x02) 0x0E ^^^ gmul a 0x0B ^^^ gmul a 0x0D ^^^ gmul (gmul a 0x03) 0x09 = a := by decide +kernel

theorem mixed_products_one_place : ∀ a : Byte,
    gmul (gmul a 0x03) 0x0E ^^^ gmul (gmul a 0x02) 0x0B ^^^ gmul a 0x0D ^^^ gmul a 0x09 = 0#8 := by decide +kernel

theorem mixed_products_two_places : ∀ a : Byte,
    gmul a 0x0E ^^^ gmul (gmul a 0x03) 0x0B ^^^ gmul (gmul a 0x02) 0x0D ^^^ gmul a 0x09 = 0#8 := by decide +kernel

theorem mixed_products_three_places : ∀ a : Byte,
    gmul a 0x0E ^^^ gmul a 0x0B ^^^ gmul (gmul a 0x03) 0x0D ^^^ gmul (gmul a 0x02) 0x09 = 0#8 := by decide +kernel

/-- By linearity the sixteen products are regrouped by the column's bytes. -/
theorem invMixByte_mixByte (a b c d : Byte) :
    invMixByte (mixByte a b c d) (mixByte b c d a) (mixByte c d a b) (mixByte d a b c) = a := by
  calc
    _ = (gmul (gmul a 0x02) 0x0E ^^^ gmul a 0x0B ^^^ gmul a 0x0D ^^^ gmul (gmul a 0x03) 0x09) ^^^
        (gmul (gmul b 0x03) 0x0E ^^^ gmul (gmul b 0x02) 0x0B ^^^ gmul b 0x0D ^^^ gmul b 0x09) ^^^
        (gmul c 0x0E ^^^ gmul (gmul c 0x03) 0x0B ^^^ gmul (gmul c 0x02) 0x0D ^^^ gmul c 0x09) ^^^
        (gmul d 0x0E ^^^ gmul d 0x0B ^^^ gmul (gmul d 0x03) 0x0D ^^^ gmul (gmul d 0x02) 0x09) := by
      simp only [invMixByte, mixByte, gmul_xor]
      ac_rfl
    _ = a := by
      rw [mixed_products_same_place, mixed_products_one_place, mixed_products_two_places, mixed_products_three_places,
        BitVec.xor_zero, BitVec.xor_zero, BitVec.xor_zero]

theorem invMixColumns_mixColumns (s : Block) : invMixColumns (mixColumns s) = s := by
  refine Vector.ext fun k hk => ?_
  simp only [invMixColumns, mixColumns, Vector.getElem_ofFn]
  interval_cases k <;> exact invMixByte_mixByte ..

/-! The other steps of a round. -/

theorem invShiftRows_shiftRows (s : Block) : invShiftRows (shiftRows s) = s := by
  refine Vector.ext fun k hk => ?_
  simp only [invShiftRows, shiftRows, Vector.getElem_ofFn]
  interval_cases k <;> rfl

theorem invSubBytes_subBytes (s : Block) : invSubBytes (subBytes s) = s := by
  refine Vector.ext fun k hk => ?_
  simpa [invSubBytes, subBytes] using inverseSboxInvertsSbox s[k]

@[simp] theorem getElem_xorBlock (a b : Block) {k : Nat} (hk : k < 16) : (xorBlock a b)[k] = a[k] ^^^ b[k] := by
  simp [xorBlock]

@[simp] theorem xorBlock_xorBlock_cancel (a b : Block) : xorBlock (xorBlock a b) b = a := by
  refine Vector.ext fun k hk => ?_
  simp

theorem xorBlock_comm (a b : Block) : xorBlock a b = xorBlock b a := by
  refine Vector.ext fun k hk => ?_
  simp only [getElem_xorBlock, BitVec.xor_comm]

theorem xorBlock_xorBlock_xorBlock_cancel (a b c : Block) : xorBlock (xorBlock a c) (xorBlock b c) = xorBlock a b := by
  refine Vector.ext fun k hk => ?_
  simp only [getElem_xorBlock, xor_xor_xor_cancel]

@[simp] theorem addRoundKey_addRoundKey (s : Block) (w : List KeyWord) (round : Nat) :
    addRoundKey (addRoundKey s w round) w round = s := xorBlock_xorBlock_cancel s (roundKey w round)

/-- InvShiftRows and InvSubBytes undo SubBytes and ShiftRows (R182). -/
theorem invSubBytes_invShiftRows_shiftRows_subBytes (s : Block) :
    invSubBytes (invShiftRows (shiftRows (subBytes s))) = s := by
  rw [invShiftRows_shiftRows, invSubBytes_subBytes]

/-! The cipher (R182). -/

/-- Each inverse round undoes the last forward round, and the state before the next one has again passed SubBytes and
ShiftRows. -/
theorem invRounds_forwardRounds (w : List KeyWord) (n : Nat) (s : Block) :
    invRounds w n (shiftRows (subBytes (forwardRounds w n s))) = shiftRows (subBytes s) := by
  induction n with
  | zero => rfl
  | succ n ih =>
    rw [invRounds, invSubBytes_invShiftRows_shiftRows_subBytes, forwardRounds, addRoundKey_addRoundKey,
      invMixColumns_mixColumns, ih]

/-- The inverse cipher inverts the forward cipher (R192). -/
theorem invCipher_cipher (block key : Block) : invCipher (cipher block key) key = block := by
  simp only [invCipher, cipher, addRoundKey_addRoundKey, invRounds_forwardRounds,
    invSubBytes_invShiftRows_shiftRows_subBytes]

/-! CBC (R190, R192). -/

@[simp] theorem blockOf_toList_append (b : Block) (l : List Byte) : blockOf (b.toList ++ l) = b := by
  refine Vector.ext fun k hk => ?_
  simp [blockOf, List.getElem?_append]

@[simp] theorem drop_toList_append (b : Block) (l : List Byte) : (b.toList ++ l).drop 16 = l :=
  List.drop_left' b.length_toList

theorem toList_blockOf {l : List Byte} (h : 16 ≤ l.length) : (blockOf l).toList = l.take 16 := by
  apply List.ext_getElem
  · simp [h]
  · intro k hk _
    have hk : k < 16 := by simpa using hk
    simp [blockOf, List.getElem?_eq_getElem (hk.trans_le h)]

theorem length_cbcEncryptBlocks (key : Block) (m : Nat) (prev : Block) (pt : List Byte) :
    (cbcEncryptBlocks key m prev pt).length = 16 * m := by
  induction m generalizing prev pt with
  | zero => rfl
  | succ m ih =>
    simp only [cbcEncryptBlocks, List.length_append, ih, Vector.length_toList]
    omega

/-- Each plaintext block is recovered with the ciphertext block that it was chained to. -/
theorem cbcBlocks_cbcEncryptBlocks (key : Block) {m : Nat} (prev : Block) {pt : List Byte} (h : pt.length = 16 * m) :
    cbcBlocks key m prev (cbcEncryptBlocks key m prev pt) = pt := by
  induction m generalizing prev pt with
  | zero => exact (List.eq_nil_of_length_eq_zero h).symm
  | succ m ih =>
    have hrest : (pt.drop 16).length = 16 * m := by
      rw [List.length_drop]
      omega
    rw [cbcEncryptBlocks, cbcBlocks, blockOf_toList_append, drop_toList_append, invCipher_cipher,
      xorBlock_xorBlock_cancel, ih _ hrest, toList_blockOf (by omega), List.take_append_drop]

theorem length_cbcEncrypt {pt : List Byte} (h : pt.length % 16 = 0) (key iv : Block) :
    (cbcEncrypt pt key iv).length = pt.length := by
  rw [cbcEncrypt, length_cbcEncryptBlocks]
  omega

/-- CBC decryption inverts CBC encryption of whole blocks (R192). -/
theorem cbcDecrypt_cbcEncrypt {pt : List Byte} (h : pt.length % 16 = 0) (key iv : Block) :
    cbcDecrypt (cbcEncrypt pt key iv) key iv = pt := by
  rw [cbcDecrypt, cbcEncrypt, length_cbcEncryptBlocks, Nat.mul_div_cancel_left _ (by decide)]
  exact cbcBlocks_cbcEncryptBlocks key iv (by omega)

theorem drop_block_succ (j : Nat) (l : List Byte) : l.drop (16 * (j + 1)) = (l.drop 16).drop (16 * j) := by
  rw [List.drop_drop, Nat.mul_succ, Nat.add_comm]

/-- Block `j` is decrypted with the ciphertext block before it (R190). -/
theorem blockOf_drop_cbcBlocks (key prev : Block) (ct : List Byte) {m j : Nat} (hj : j < m) :
    blockOf ((cbcBlocks key m prev ct).drop (16 * j)) =
      xorBlock (invCipher (blockOf (ct.drop (16 * j))) key)
        (if j = 0 then prev else blockOf (ct.drop (16 * (j - 1)))) := by
  induction m generalizing prev ct j with
  | zero => exact absurd hj j.not_lt_zero
  | succ m ih =>
    rw [cbcBlocks]
    cases j with
    | zero => exact blockOf_toList_append ..
    | succ j =>
      have hprev : (if j = 0 then blockOf ct else blockOf ((ct.drop 16).drop (16 * (j - 1)))) =
          blockOf (ct.drop (16 * j)) := by
        cases j with
        | zero => rfl
        | succ j => rw [if_neg j.succ_ne_zero, drop_block_succ, Nat.add_sub_cancel]
      rw [drop_block_succ, drop_block_succ, drop_toList_append, ih _ _ (by omega), hprev, if_neg j.succ_ne_zero,
        Nat.add_sub_cancel]

/-- Past the first block the IV does not matter (R190). -/
theorem drop_cbcBlocks_congr (key prev prev' : Block) (m : Nat) (ct : List Byte) :
    (cbcBlocks key m prev ct).drop 16 = (cbcBlocks key m prev' ct).drop 16 := by
  cases m with
  | zero => rfl
  | succ m => rw [cbcBlocks, cbcBlocks, drop_toList_append, drop_toList_append]

/-- Settles O22: the length, each block (`blockOf_drop_cbcBlocks`), the rest of the plaintext (`drop_cbcBlocks_congr`),
and the first block, which is the same block of the inverse cipher under both IVs. -/
theorem cbcBlocksChain : Obligations.CbcBlocksChain := by
  intro ct key iv iv' m hlen hm
  have hblocks (v : Block) : cbcDecrypt ct key v = cbcBlocks key m v ct := by
    rw [cbcDecrypt, hlen, Nat.mul_div_cancel_left _ (by decide)]
  have hfirst (v : Block) : blockOf (cbcBlocks key m v ct) = xorBlock (invCipher (blockOf ct) key) v := by
    simpa using blockOf_drop_cbcBlocks key v ct hm
  simp only [hblocks]
  refine ⟨(length_cbcBlocks ..).trans hlen.symm, fun j => blockOf_drop_cbcBlocks key iv ct,
    drop_cbcBlocks_congr .., ?_⟩
  rw [hfirst, hfirst, xorBlock_comm _ iv, xorBlock_comm _ iv', xorBlock_xorBlock_xorBlock_cancel]

end Sys2Proof.Machine.Aes
end

section
/-! DECRYPT (43_decrypt.md rules R170 to R178, R192). Its five ends, each under the conditions that select it; the
claims about the request checks, the length, the engine's draw, the key and the round trip read them off. -/

namespace Sys2Proof.Machine

/-! The five ends, and the payload of the one that succeeds. -/

/-- The ciphertext slice is a positive number of whole blocks (R173). -/
abbrev WholeBlocks (s : State) : Prop := s.ctLen.toNat ≠ 0 ∧ s.ctLen.toNat % 16 = 0

theorem decrypt_of_no_key {s : State} (src : IvSrc) (h : s.keyValid = false) :
    decrypt src s = raiseRequest .noKey s := by
  rcases decrypt_cases src s with ⟨_, hs⟩ | ⟨hkey, _⟩ | ⟨hkey, _⟩
  · exact hs
  · rw [h] at hkey
    cases hkey
  · rw [h] at hkey
    cases hkey

theorem decrypt_of_out_of_range {s : State} (src : IvSrc) (hkey : s.keyValid = true)
    (h : s.telMax.toNat < s.telLen.toNat ∨ s.telLen.toNat < s.ctOff.toNat + s.ctLen.toNat) :
    decrypt src s = raiseRequest .range s := by
  rcases decrypt_cases src s with ⟨hno, _⟩ | ⟨_, _, hs⟩ | ⟨_, _, _, _⟩
  · rw [hkey] at hno
    cases hno
  · exact hs
  · omega

theorem decrypt_of_bad_length {s : State} (src : IvSrc) (h : PassesChecks s) (hlen : ¬ WholeBlocks s) :
    decrypt src s = raiseError .decryptionFailed (setOutcome .failed .length .none (discardPlaintext s)) := by
  rw [decrypt_of_passesChecks src h, decryptSlice]
  rcases attempt_cases (ciphertext s) (ivOperand src s) s with ⟨_, ha, hafter⟩ | ⟨hok, _⟩
  · rw [ha, hafter]
  · rw [length_ciphertext] at hok
    exact absurd hok hlen

theorem decrypt_of_no_fault {s : State} (src : IvSrc) (h : PassesChecks s) (hlen : WholeBlocks s)
    (hdraw : nextFault s = .none) :
    decrypt src s = endOk (setOutcome (successOutcome src) .none .none
      (commitPlaintext (Aes.cbcDecrypt (ciphertext s) s.key (ivOperand src s)) (useFault s))) := by
  rw [decrypt_of_passesChecks src h, decryptSlice]
  rcases attempt_cases (ciphertext s) (ivOperand src s) s with ⟨hbad, _⟩ | ⟨_, hafter, ⟨_, ha⟩ | ⟨hfault, _⟩⟩
  · rw [length_ciphertext] at hbad
    exact absurd hlen hbad
  · rw [ha, hafter]
  · exact absurd hdraw hfault

theorem decrypt_of_fault {s : State} (src : IvSrc) (h : PassesChecks s) (hlen : WholeBlocks s)
    (hdraw : nextFault s ≠ .none) :
    decrypt src s = raiseError .decryptionFailed
      (setOutcome .failed (causeOfFault (nextFault s)) .none (discardPlaintext (useFault s))) := by
  rw [decrypt_of_passesChecks src h, decryptSlice]
  rcases attempt_cases (ciphertext s) (ivOperand src s) s with ⟨hbad, _⟩ | ⟨_, hafter, ⟨hnone, _⟩ | ⟨_, ha⟩⟩
  · rw [length_ciphertext] at hbad
    exact absurd hlen hbad
  · exact absurd hnone hdraw
  · rw [ha, hafter]

/-- The plaintext of whole blocks is as long as the slice (R175, R190). -/
theorem length_cbcDecrypt_ciphertext {s : State} (h : WholeBlocks s) (key iv : Block) :
    (Aes.cbcDecrypt (ciphertext s) key iv).length = s.ctLen.toNat := by
  rw [Aes.length_cbcDecrypt (by simpa using h.2), length_ciphertext]

/-- DECRYPT of whole blocks on which the engine does not fail stores their CBC decryption (R175). -/
theorem decrypt_payload {s : State} (src : IvSrc) (h : PassesChecks s) (hlen : WholeBlocks s)
    (hdraw : nextFault s = .none) :
    decryptedPayload (decrypt src s) = some (Aes.cbcDecrypt (ciphertext s) s.key (ivOperand src s)) ∧
      (decrypt src s).ptLen = s.ctLen := by
  have hlength := length_cbcDecrypt_ciphertext hlen s.key (ivOperand src s)
  rw [decrypt_of_no_fault src h hlen hdraw]
  refine ⟨decryptedPayload_commitPlaintext (hlength ▸ s.ctLen.isLt) (useFault s), ?_⟩
  simp only [endOk, finish_fields, setOutcome_fields, commitPlaintext_fields, hlength, BitVec.ofNat_toNat,
    BitVec.setWidth_eq]

/-! The request checks and the length (R171, R173). -/

/-- Settles O16: the two request errors of DECRYPT (`decrypt_of_no_key`, `decrypt_of_out_of_range`). -/
theorem decryptChecksKeyThenRange : Obligations.DecryptChecksKeyThenRange := by
  intro src s
  refine ⟨fun hno => ?_, fun hkey hrange => ?_⟩
  · rw [exec_eq_complete, complete, decrypt_of_no_key src hno]
    rfl
  · rw [exec_eq_complete, complete, decrypt_of_out_of_range src hkey hrange]
    rfl

/-- Settles O17: an attempt of no acceptable length fails without a draw (`decrypt_of_bad_length`). -/
theorem decryptOfABadLengthFails : Obligations.DecryptOfABadLengthFails := by
  intro src s hkey hmax hslice hlen
  refine ⟨_, exec_eq_complete .., ?_⟩
  have hbad : ¬ WholeBlocks s := fun ⟨h0, h16⟩ => hlen.elim (fun h => h0 (congrArg _ h)) (· h16)
  rw [complete, decrypt_of_bad_length src ⟨hkey, hmax, hslice⟩ hbad]
  exact ⟨rfl, rfl⟩

/-! Whole blocks (R170, R174): the codes and the IV that the claim writes out, then the claim. -/

theorem causeOfFault_code (f : EngineFault) :
    (causeOfFault f).code = match f with | .none => 0 | .init => 2 | .update => 3 | .final => 4 := by
  cases f <;> rfl

theorem successOutcome_code (src : IvSrc) :
    (successOutcome src).code = match src with | .ivReg => 1 | .zeroIv => 2 := by
  cases src <;> rfl

theorem ivOperand_eq (src : IvSrc) (s : State) :
    ivOperand src s = match src with | .ivReg => s.iv | .zeroIv => Vector.replicate 16 0 := by
  cases src <;> rfl

/-- Settles O18: the draw selects between the stored plaintext (`decrypt_payload`) and the failure with the draw's cause
(`decrypt_of_fault`). -/
theorem decryptOfWholeBlocks : Obligations.DecryptOfWholeBlocks := by
  intro src s hkey hmax hslice hpos h16
  have hpass : PassesChecks s := ⟨hkey, hmax, hslice⟩
  have hlen : WholeBlocks s := ⟨fun h0 => hpos (BitVec.eq_of_toNat_eq h0), h16⟩
  refine ⟨_, exec_eq_complete .., ?_⟩
  rw [complete]
  by_cases hdraw : nextFault s = .none
  · obtain ⟨hpayload, hptLen⟩ := decrypt_payload src hpass hlen hdraw
    have hiv := congrArg some (congrArg (Aes.cbcDecrypt (ciphertext s) s.key) (ivOperand_eq src s))
    rw [decrypt_of_no_fault src hpass hlen hdraw] at hpayload hptLen ⊢
    exact ⟨fun _ => ⟨hpayload.trans hiv, hptLen, successOutcome_code src, rfl, rfl⟩, fun h => absurd hdraw h, rfl⟩
  · rw [decrypt_of_fault src hpass hlen hdraw]
    exact ⟨fun h => absurd h hdraw, fun _ => ⟨rfl, rfl, rfl, rfl, causeOfFault_code _⟩, rfl⟩

/-! KEY and IV (R178). -/

/-- The state with another KEY and another IV. -/
def withKeyAndIv (key iv : Block) (s : State) : State := { s with key := key, iv := iv }

theorem ciphertext_withKeyAndIv (key iv : Block) (s : State) :
    ciphertext (withKeyAndIv key iv s) = ciphertext s := rfl

/-- What STATUS and PT_LEN show of a decryption agrees (R178). -/
abbrev SameStatus (t u : State) : Prop :=
  t.err = u.err ∧ t.detail = u.detail ∧ t.outcome = u.outcome ∧ t.causeA = u.causeA ∧ t.causeB = u.causeB ∧
    t.ptValid = u.ptValid ∧ t.ptLen = u.ptLen

/-- Both DECRYPTs have the same end, since KEY and IV select none of the five, and the plaintexts have the same
length. -/
theorem decrypt_withKeyAndIv_sameStatus (src : IvSrc) (key iv : Block) (s : State) :
    SameStatus (decrypt src s) (decrypt src (withKeyAndIv key iv s)) := by
  rcases decrypt_cases src s with ⟨hno, hs⟩ | ⟨hkey, hrange, hs⟩ | ⟨hkey, hmax, hslice, _⟩
  · rw [hs, decrypt_of_no_key (s := withKeyAndIv key iv s) src hno]
    exact ⟨rfl, rfl, rfl, rfl, rfl, rfl, rfl⟩
  · rw [hs, decrypt_of_out_of_range (s := withKeyAndIv key iv s) src hkey hrange]
    exact ⟨rfl, rfl, rfl, rfl, rfl, rfl, rfl⟩
  · have hpass : PassesChecks s := ⟨hkey, hmax, hslice⟩
    by_cases hlen : WholeBlocks s
    · by_cases hdraw : nextFault s = .none
      · rw [decrypt_of_no_fault src hpass hlen hdraw,
          decrypt_of_no_fault (s := withKeyAndIv key iv s) src hpass hlen hdraw]
        simp only [SameStatus, endOk, finish_fields, setOutcome_fields, commitPlaintext_fields, ciphertext_withKeyAndIv,
          length_cbcDecrypt_ciphertext hlen, and_self]
      · rw [decrypt_of_fault src hpass hlen hdraw,
          decrypt_of_fault (s := withKeyAndIv key iv s) src hpass hlen hdraw]
        exact ⟨rfl, rfl, rfl, rfl, rfl, rfl, rfl⟩
    · rw [decrypt_of_bad_length src hpass hlen,
        decrypt_of_bad_length (s := withKeyAndIv key iv s) src hpass hlen]
      exact ⟨rfl, rfl, rfl, rfl, rfl, rfl, rfl⟩

/-- Settles O19, by `decrypt_withKeyAndIv_sameStatus`. -/
theorem successDoesNotDependOnKeyOrIv : Obligations.SuccessDoesNotDependOnKeyOrIv := by
  intro src s t u key iv ht hu
  rw [exec_eq_complete] at ht hu
  cases ht
  cases hu
  exact decrypt_withKeyAndIv_sameStatus src key iv s

/-! The round trip (R192). -/

/-- Settles O23: the payload is the CBC decryption of the slice (`decrypt_payload`), which inverts the encryption
(`Aes.cbcDecrypt_cbcEncrypt`); on a failure of the engine the other alternative holds. -/
theorem decryptInvertsCbcEncryption : Obligations.DecryptInvertsCbcEncryption := by
  intro s pt hkey hmax hslice hpt h16 hct
  have hpass : PassesChecks s := ⟨hkey, hmax, hslice⟩
  rw [← ciphertext_eq] at hct
  have hctLen : s.ctLen.toNat = pt.length := by
    rw [← length_ciphertext, hct, Aes.length_cbcEncrypt h16]
  have hlen : WholeBlocks s := by
    rw [WholeBlocks, hctLen]
    exact ⟨List.length_eq_zero_iff.not.2 hpt, h16⟩
  refine ⟨_, exec_eq_complete .., ?_⟩
  rw [complete]
  by_cases hdraw : nextFault s = .none
  · have hpayload := (decrypt_payload .ivReg hpass hlen hdraw).1
    rw [hct, ivOperand, Aes.cbcDecrypt_cbcEncrypt h16] at hpayload
    refine .inl ⟨hpayload, ?_⟩
    rw [decrypt_of_no_fault .ivReg hpass hlen hdraw]
    rfl
  · rw [decrypt_of_fault .ivReg hpass hlen hdraw]
    exact .inr ⟨hdraw, rfl⟩

end Sys2Proof.Machine
end

section
/-! The frame of the five commands (30_encoding.md rule R95). Each completion is the end of a command (`finish`) on a
state that differs from the one before it in the registers of the command's row alone. -/

namespace Sys2Proof.Machine

/-! The registers of the column "writes" of R95. -/

/-- Nothing differs but the record and the result fields that PARSE clears (R127, R129). -/
abbrev WritesRecord (s u : State) : Prop :=
  u = { s with
    lField := u.lField, cField := u.cField, mField := u.mField, ciField := u.ciField, ctOff := u.ctOff
    ctLen := u.ctLen, parsed := u.parsed, ptValid := u.ptValid, ptLen := u.ptLen, outcome := u.outcome
    causeA := u.causeA, causeB := u.causeB }

/-- Nothing differs but the plaintext, the result fields and the draws of a decryption (R179). -/
abbrev WritesResult (s u : State) : Prop :=
  u = { s with
    ptBuf := u.ptBuf, ptDraw := u.ptDraw, ptLen := u.ptLen, ptValid := u.ptValid, outcome := u.outcome
    causeA := u.causeA, causeB := u.causeB, faultDraws := u.faultDraws, freeDraws := u.freeDraws }

/-- Nothing differs but the record, IV, and what a decryption writes (R230). -/
abbrev WritesTelegramResult (s u : State) : Prop :=
  u = { s with
    lField := u.lField, cField := u.cField, mField := u.mField, ciField := u.ciField, ctOff := u.ctOff
    ctLen := u.ctLen, parsed := u.parsed, iv := u.iv, ptBuf := u.ptBuf, ptDraw := u.ptDraw, ptLen := u.ptLen
    ptValid := u.ptValid, outcome := u.outcome, causeA := u.causeA, causeB := u.causeB
    faultDraws := u.faultDraws, freeDraws := u.freeDraws }

/-- Nothing differs but the key registers (R260). -/
abbrev WritesKey (s u : State) : Prop := u = { s with key := u.key, keyValid := u.keyValid, keyIn := u.keyIn }

/-! What each completion ends on. -/

theorem parse_frame (s : State) : ∃ e d u, parse s = finish e d u ∧ WritesRecord s u := by
  rcases parse_cases s with ⟨_, hs⟩ | ⟨_, _, hs⟩ | ⟨_, _, hs⟩
  · exact ⟨_, _, _, hs, rfl⟩
  · exact ⟨_, _, _, hs, rfl⟩
  · exact ⟨_, _, _, hs, rfl⟩

theorem deriveIv_frame (s : State) : ∃ e d u, deriveIv s = finish e d u ∧ u = { s with iv := u.iv } := by
  rcases deriveIv_cases s with ⟨_, hs⟩ | ⟨_, hs⟩
  · exact ⟨_, _, _, hs, rfl⟩
  · exact ⟨_, _, _, hs, by unfold storeDerivedIv; rfl⟩

/-- An attempt advances the counter of the ENGINE_FAULT draws and writes nothing else (R172, R173). -/
theorem afterAttempt_frame (ct : List Byte) (s : State) : ∃ n, afterAttempt ct s = { s with faultDraws := n } := by
  unfold afterAttempt
  split
  · exact ⟨_, rfl⟩
  · exact ⟨_, rfl⟩

theorem decrypt_frame (src : IvSrc) (s : State) : ∃ e d u, decrypt src s = finish e d u ∧ WritesResult s u := by
  obtain ⟨n, hn⟩ := afterAttempt_frame (ciphertext s) s
  rcases decrypt_cases src s with ⟨_, hs⟩ | ⟨_, _, hs⟩ | ⟨_, _, _, hs⟩
  · exact ⟨_, _, _, hs, rfl⟩
  · exact ⟨_, _, _, hs, rfl⟩
  · rcases decryptSlice_cases src s with ⟨_, _, hs'⟩ | ⟨_, _, _, hs'⟩
    · exact ⟨_, _, _, hs.trans hs', by rw [hn]; rfl⟩
    · exact ⟨_, _, _, hs.trans hs', by rw [hn]; rfl⟩

theorem twoAttempts_frame (ct : List Byte) (s : State) : WritesResult s (twoAttempts ct s) := by
  obtain ⟨n, hn⟩ := afterAttempt_frame ct s
  obtain ⟨n', hn'⟩ := afterAttempt_frame ct (afterAttempt ct s)
  rcases twoAttempts_cases ct s with ⟨_, _, hs⟩ | ⟨_, _, _, _, _, hs⟩ | ⟨_, _, _, _, _, _, hs⟩
  · rw [hs, hn]
    rfl
  · rw [hs, hn', hn]
    rfl
  · rw [hs, hn', hn]
    rfl

theorem parseAndDecrypt_frame (s : State) : WritesTelegramResult s (parseAndDecrypt s) := by
  rw [parseAndDecrypt_eq]
  generalize ciphertext (storeDerivedIv (parseHeader s)) = ct
  have h := twoAttempts_frame ct (storeDerivedIv (parseHeader s))
  rw [h]
  unfold storeDerivedIv
  rfl

theorem decryptTelegram_frame (s : State) :
    ∃ e d u, decryptTelegram s = finish e d u ∧ WritesTelegramResult s u := by
  rcases decryptTelegram_cases s with ⟨_, hs⟩ | ⟨_, _, hs⟩ | ⟨_, _, _, hs⟩ | ⟨_, _, _, hs⟩
  · exact ⟨_, _, _, hs, rfl⟩
  · exact ⟨_, _, _, hs, rfl⟩
  · exact ⟨_, _, _, hs, rfl⟩
  · exact ⟨_, _, _, hs, parseAndDecrypt_frame s⟩

theorem loadKey_frame (s : State) : ∃ e d u, loadKey s = finish e d u ∧ WritesKey s u := by
  rcases loadKey_cases s with ⟨_, hs⟩ | ⟨_, _, hs⟩ | ⟨_, _, hs⟩
  · exact ⟨_, _, _, hs, rfl⟩
  · exact ⟨_, _, _, hs, rfl⟩
  · exact ⟨_, _, _, hs, rfl⟩

/-! The bytes of the buffers. -/

/-- PARSE makes bytes of PT_BUF unspecified, and only where it clears PT_VALID (R49, R127, R129). -/
theorem ptByte_parse {s : State} {k : Nat} (h : (parse s).ptValid = s.ptValid ∨ s.ptLen.toNat ≤ k) :
    ptByte (parse s) k = ptByte s k := by
  rcases parse_cases s with ⟨_, hs⟩ | ⟨_, _, hs⟩ | ⟨_, _, hs⟩
  · rw [hs]
    rfl
  · rw [hs] at h ⊢
    exact ptByte_unspecified_congr (h.imp_left Eq.symm) (.inl rfl) rfl
  · rw [hs] at h ⊢
    exact ptByte_unspecified_congr (h.imp_left Eq.symm) (.inl rfl) rfl

/-- Settles O7: each command's end is that of a state in its frame, so TEL_BUF keeps its bytes; `ptByte_parse` covers
what PARSE makes unspecified. -/
theorem commandsWriteOnlyTheirOperands : Obligations.CommandsWriteOnlyTheirOperands := by
  intro i s t ht
  rw [exec_eq_complete] at ht
  cases ht
  cases i with
  | parse =>
    obtain ⟨e, d, u, hs, hu⟩ := parse_frame s
    refine ⟨?_, fun _ => ptByte_parse, ?_⟩
    · rw [complete, hs, hu]
      exact fun _ => rfl
    · rw [complete, hs, hu]
      rfl
  | deriveIv =>
    obtain ⟨e, d, u, hs, hu⟩ := deriveIv_frame s
    rw [complete, hs, hu]
    exact ⟨fun _ => rfl, fun _ => rfl, rfl⟩
  | decrypt src =>
    obtain ⟨e, d, u, hs, hu⟩ := decrypt_frame src s
    rw [complete, hs, hu]
    exact ⟨fun _ => rfl, rfl⟩
  | decryptTelegram =>
    obtain ⟨e, d, u, hs, hu⟩ := decryptTelegram_frame s
    rw [complete, hs, hu]
    exact ⟨fun _ => rfl, rfl⟩
  | loadKey =>
    obtain ⟨e, d, u, hs, hu⟩ := loadKey_frame s
    rw [complete, hs, hu]
    exact ⟨fun _ => rfl, fun _ => rfl, rfl⟩

end Sys2Proof.Machine
end

section
/-! DECRYPT_TELEGRAM (44_decrypt_telegram.md rules R230 to R240). Its request checks, then the four ends that the length of
the payload and the two draws select; the claims read them off. -/

namespace Sys2Proof.Machine

/-! The checks (R231, R232). -/

/-- DECRYPT_TELEGRAM passes all its checks: a key, and a telegram of 10 to TEL_MAX bytes. -/
abbrev TelegramAccepted (s : State) : Prop :=
  s.keyValid = true ∧ 10 ≤ s.telLen.toNat ∧ s.telLen.toNat ≤ s.telMax.toNat

/-- The state on which the attempts are made: the record of PARSE, and the derived IV in IV (R233). -/
def parsedAndDerived (s : State) : State := storeDerivedIv (parseHeader s)

theorem decryptTelegram_of_no_key {s : State} (h : s.keyValid = false) :
    decryptTelegram s = raiseRequest .noKey s :=
  if_pos (by simp [h])

theorem decryptTelegram_of_too_long {s : State} (hkey : s.keyValid = true) (h : s.telMax.toNat < s.telLen.toNat) :
    decryptTelegram s = raiseRequest .range s :=
  (if_neg (by simp [hkey])).trans (if_pos ((telTooLong_iff s).2 h))

theorem decryptTelegram_of_too_short {s : State} (hkey : s.keyValid = true) (hmax : s.telLen.toNat ≤ s.telMax.toNat)
    (h : s.telLen.toNat < 10) : decryptTelegram s = raiseError .malformedTelegram (clearRecord s) := by
  rcases decryptTelegram_cases s with ⟨hno, _⟩ | ⟨_, hlong, _⟩ | ⟨_, _, _, hs⟩ | ⟨_, _, hmin, _⟩
  · simp [hkey] at hno
  · omega
  · exact hs
  · omega

theorem decryptTelegram_of_accepted {s : State} (h : TelegramAccepted s) :
    decryptTelegram s = endOk (twoAttempts (ciphertext (parsedAndDerived s)) (parsedAndDerived s)) := by
  obtain ⟨hkey, hmin, hmax⟩ := h
  rcases decryptTelegram_cases s with ⟨hno, _⟩ | ⟨_, hlong, _⟩ | ⟨_, _, hshort, _⟩ | ⟨_, _, _, hs⟩
  · simp [hkey] at hno
  · omega
  · omega
  · exact hs

/-! The two attempts on the ciphertext slice: the end that its length and the two draws select (R234, R235). -/

theorem attemptLengthOk_ciphertext_iff (s : State) :
    attemptLengthOk (ciphertext s).length = true ↔ WholeBlocks s := by
  rw [attemptLengthOk_iff, length_ciphertext]

theorem attempt_of_bad_length {s : State} (h : ¬ WholeBlocks s) (iv : Block) (u : State) :
    attempt (ciphertext s) iv u = .fail .length :=
  if_neg (mt (attemptLengthOk_ciphertext_iff s).1 h)

theorem afterAttempt_of_bad_length {s : State} (h : ¬ WholeBlocks s) (u : State) :
    afterAttempt (ciphertext s) u = u :=
  if_neg (mt (attemptLengthOk_ciphertext_iff s).1 h)

theorem afterAttempt_of_wholeBlocks {s : State} (h : WholeBlocks s) (u : State) :
    afterAttempt (ciphertext s) u = useFault u :=
  if_pos ((attemptLengthOk_ciphertext_iff s).2 h)

theorem attempt_of_no_fault {s u : State} (h : WholeBlocks s) (iv : Block) (hdraw : nextFault u = .none) :
    attempt (ciphertext s) iv u = .ok (Aes.cbcDecrypt (ciphertext s) u.key iv) := by
  rcases attempt_cases (ciphertext s) iv u with ⟨hbad, _⟩ | ⟨_, _, ⟨_, ha⟩ | ⟨hfault, _⟩⟩
  · rw [length_ciphertext] at hbad
    exact absurd h hbad
  · exact ha
  · exact absurd hdraw hfault

theorem attempt_of_fault {s u : State} (h : WholeBlocks s) (iv : Block) (hdraw : nextFault u ≠ .none) :
    attempt (ciphertext s) iv u = .fail (causeOfFault (nextFault u)) := by
  rcases attempt_cases (ciphertext s) iv u with ⟨hbad, _⟩ | ⟨_, _, ⟨hnone, _⟩ | ⟨_, ha⟩⟩
  · rw [length_ciphertext] at hbad
    exact absurd h hbad
  · exact absurd hnone hdraw
  · exact ha

theorem twoAttempts_of_bad_length {s : State} (h : ¬ WholeBlocks s) :
    twoAttempts (ciphertext s) s = setOutcome .failed .length .length (discardPlaintext s) := by
  simp only [twoAttempts, fallbackAttempt, attempt_of_bad_length h, afterAttempt_of_bad_length h]

theorem twoAttempts_of_no_fault {s : State} (h : WholeBlocks s) (h1 : nextFault s = .none) :
    twoAttempts (ciphertext s) s = setOutcome .okIvReg .none .none
      (commitPlaintext (Aes.cbcDecrypt (ciphertext s) s.key s.iv) (useFault s)) := by
  simp only [twoAttempts, attempt_of_no_fault h _ h1, afterAttempt_of_wholeBlocks h]

theorem twoAttempts_of_one_fault {s : State} (h : WholeBlocks s) (h1 : nextFault s ≠ .none)
    (h2 : nextFault (useFault s) = .none) :
    twoAttempts (ciphertext s) s = setOutcome .okZero (causeOfFault (nextFault s)) .none
      (commitPlaintext (Aes.cbcDecrypt (ciphertext s) s.key zeroBlock) (useFault (useFault s))) := by
  simp only [twoAttempts, fallbackAttempt, attempt_of_fault h _ h1, afterAttempt_of_wholeBlocks h,
    attempt_of_no_fault h _ h2, useFault_fields]

theorem twoAttempts_of_two_faults {s : State} (h : WholeBlocks s) (h1 : nextFault s ≠ .none)
    (h2 : nextFault (useFault s) ≠ .none) :
    twoAttempts (ciphertext s) s = setOutcome .failed (causeOfFault (nextFault s))
      (causeOfFault (nextFault (useFault s))) (discardPlaintext (useFault (useFault s))) := by
  simp only [twoAttempts, fallbackAttempt, attempt_of_fault h _ h1, afterAttempt_of_wholeBlocks h,
    attempt_of_fault h _ h2]

/-! What the attempts are made on (R122, R151, R233). -/

theorem parsedAndDerived_faultDraws (s : State) : (parsedAndDerived s).faultDraws = s.faultDraws := by
  simp [parsedAndDerived]

theorem parsedAndDerived_key (s : State) : (parsedAndDerived s).key = s.key := by
  simp [parsedAndDerived]

theorem parsedAndDerived_iv (s : State) : (parsedAndDerived s).iv =
    #v[telByte s 2, telByte s 3, telByte s 4, telByte s 5, telByte s 6, telByte s 7, 0, 0, 0, 0, 0, 0, 0, 0, 0, 0] := by
  rw [parsedAndDerived, storeDerivedIv_iv, derivedIv_eq]
  rfl

theorem parsedAndDerived_ctLen {s : State} (hmin : 10 ≤ s.telLen.toNat) :
    (parsedAndDerived s).ctLen.toNat = s.telLen.toNat - 9 := by
  simp only [parsedAndDerived, storeDerivedIv_fields, parseHeader_fields]
  bv_omega

/-- The payload is what follows the 9 bytes of the header. -/
theorem ciphertext_parsedAndDerived {s : State} (hmin : 10 ≤ s.telLen.toNat) :
    ciphertext (parsedAndDerived s) = (List.range (s.telLen.toNat - 9)).map fun k => telByte s (9 + k) := by
  rw [ciphertext_eq, parsedAndDerived_ctLen hmin]
  simp [parsedAndDerived]

/-- The payload is not empty, so it is acceptable exactly when its length is a multiple of 16 (R173). -/
theorem wholeBlocks_parsedAndDerived_iff {s : State} (hmin : 10 ≤ s.telLen.toNat) :
    WholeBlocks (parsedAndDerived s) ↔ (s.telLen.toNat - 9) % 16 = 0 := by
  rw [WholeBlocks, parsedAndDerived_ctLen hmin]
  omega

/-- The attempts write the result and the draws alone (`twoAttempts_frame`), on the record that the header gives. -/
theorem decryptTelegram_record {s t : State} (h : TelegramAccepted s) (ht : t = decryptTelegram s) :
    t = { s with
      lField := telByte s 0, cField := telByte s 1, ciField := telByte s 8
      mField := #v[telByte s 2, telByte s 3, telByte s 4, telByte s 5, telByte s 6, telByte s 7]
      ctOff := 9, ctLen := BitVec.ofNat 16 (s.telLen.toNat - 9), parsed := true
      iv := #v[telByte s 2, telByte s 3, telByte s 4, telByte s 5, telByte s 6, telByte s 7,
        0, 0, 0, 0, 0, 0, 0, 0, 0, 0]
      err := 0, detail := 0, busy := false, pending := none, ptBuf := t.ptBuf, ptDraw := t.ptDraw, ptLen := t.ptLen
      ptValid := t.ptValid, outcome := t.outcome, causeA := t.causeA, causeB := t.causeB
      faultDraws := t.faultDraws, freeDraws := t.freeDraws } := by
  have ⟨_, hmin, _⟩ := h
  rw [ht, decryptTelegram_of_accepted h, twoAttempts_frame, ← parsedAndDerived_iv, ← parseHeader_mField,
    ← parseHeader_ctLen hmin]
  unfold parsedAndDerived storeDerivedIv
  rfl

/-- An attempt on whole blocks that succeeds leaves their CBC decryption as the payload (R175, R236). -/
theorem decryptedPayload_commit {s : State} (h : WholeBlocks s) (key iv : Block) (o : OutcomeKind) (a b : Cause)
    (u : State) :
    decryptedPayload (endOk (setOutcome o a b (commitPlaintext (Aes.cbcDecrypt (ciphertext s) key iv) u))) =
      some (Aes.cbcDecrypt (ciphertext s) key iv) :=
  decryptedPayload_commitPlaintext (length_cbcDecrypt_ciphertext h key iv ▸ s.ctLen.isLt) u

/-- Settles O25: the record by `decryptTelegram_record`; the length of the payload and the two draws select one of the
four ends of the attempts (`twoAttempts_of_bad_length` to `twoAttempts_of_two_faults`). -/
theorem telegramMakesAtMostTwoAttempts : Obligations.TelegramMakesAtMostTwoAttempts := by
  intro s hkey hmin hmax n iv ct f1 f2 code
  have haccepted : TelegramAccepted s := ⟨hkey, hmin, hmax⟩
  have hct : ciphertext (parsedAndDerived s) = ct := ciphertext_parsedAndDerived hmin
  have hkey' : (parsedAndDerived s).key = s.key := parsedAndDerived_key s
  have hiv : (parsedAndDerived s).iv = iv := parsedAndDerived_iv s
  have hn : WholeBlocks (parsedAndDerived s) ↔ n % 16 = 0 := wholeBlocks_parsedAndDerived_iff hmin
  have hdraws : (parsedAndDerived s).faultDraws = s.faultDraws := parsedAndDerived_faultDraws s
  have hf1 : nextFault (parsedAndDerived s) = f1 := congrArg Config.engineFault hdraws
  have hf2 : nextFault (useFault (parsedAndDerived s)) = f2 := congrArg (Config.engineFault <| · + 1) hdraws
  refine ⟨_, exec_eq_complete .., decryptTelegram_record haccepted rfl, ?_⟩
  rw [complete, decryptTelegram_of_accepted haccepted, ← hct, ← hkey', ← hiv, ← hf1, ← hf2, ← hdraws, ← hn]
  refine ⟨fun hlen => ?_, fun hlen h1 => ?_, fun hlen h1 h2 => ?_, fun hlen h1 h2 => ?_⟩
  · rw [twoAttempts_of_bad_length (mt hn.1 hlen)]
    exact ⟨rfl, rfl, rfl, rfl, rfl, rfl, rfl⟩
  · rw [twoAttempts_of_no_fault hlen h1]
    exact ⟨decryptedPayload_commit hlen .., rfl, rfl, rfl, rfl⟩
  · rw [twoAttempts_of_one_fault hlen h1 h2]
    exact ⟨decryptedPayload_commit hlen .., rfl, causeOfFault_code _, rfl, rfl⟩
  · rw [twoAttempts_of_two_faults hlen h1 h2]
    exact ⟨rfl, rfl, rfl, rfl, causeOfFault_code _, causeOfFault_code _, rfl⟩

/-- Settles O26: each case of the length and the two draws has its outcome (`telegramMakesAtMostTwoAttempts`), and that of
the fallback alone is OK_ZERO. -/
theorem fallbackSucceedsOnlyAfterAnEngineFault : Obligations.FallbackSucceedsOnlyAfterAnEngineFault := by
  intro s hkey hmin hmax
  obtain ⟨t, ht, _, hbad, hfirst, _, hfailed⟩ := telegramMakesAtMostTwoAttempts s hkey hmin hmax
  refine ⟨t, ht, fun h1 _ => ?_, fun hzero => ?_⟩
  · split
    · next hlen =>
      obtain ⟨_, hout, _⟩ := hfirst hlen h1
      exact hout
    · next hlen =>
      obtain ⟨_, _, _, hout, ha, hb, _⟩ := hbad hlen
      exact ⟨hout, ha, hb⟩
  · have hlen : (s.telLen.toNat - 9) % 16 = 0 := by
      by_contra hlen
      obtain ⟨_, _, _, hout, _⟩ := hbad hlen
      cases hout.symm.trans hzero
    have h1 : Config.engineFault s.faultDraws ≠ .none := fun h1 => by
      obtain ⟨_, hout, _⟩ := hfirst hlen h1
      cases hout.symm.trans hzero
    refine ⟨h1, ?_⟩
    by_contra h2
    obtain ⟨_, _, _, hout, _⟩ := hfailed hlen h1 h2
    cases hout.symm.trans hzero

/-- Settles O24: each failed check selects its end, which writes the fields that the statement lists. -/
theorem telegramChecksKeyThenRangeThenLength : Obligations.TelegramChecksKeyThenRangeThenLength := by
  intro s
  refine ⟨fun hno => ?_, fun hkey hlong => ?_, fun hkey hmax hshort => ?_⟩
  · rw [exec_eq_complete, complete, decryptTelegram_of_no_key hno]
    rfl
  · rw [exec_eq_complete, complete, decryptTelegram_of_too_long hkey hlong]
    rfl
  · rw [exec_eq_complete, complete, decryptTelegram_of_too_short hkey hmax hshort]
    rfl

end Sys2Proof.Machine
end

section
/-! LOAD_KEY (45_load_key.md rules R260 to R263): the whole next state of each of its ends. -/

namespace Sys2Proof.Machine

/-! The end that KEY_VALID and KEY_LEN select (R260). -/

theorem loadKey_of_locked {s : State} (h : s.keyValid = true) : loadKey s = raiseRequest .keyLocked s := if_pos h

theorem loadKey_of_bad_length {s : State} (hno : s.keyValid = false) (h : s.keyLen ≠ 16) :
    loadKey s = raiseError .invalidKeyLength (clearKeyIn s) :=
  (if_neg (Bool.eq_false_iff.1 hno)).trans (if_pos h)

theorem loadKey_of_staged {s : State} (hno : s.keyValid = false) (h : s.keyLen = 16) :
    loadKey s = endOk (clearKeyIn (installKey s)) :=
  (if_neg (Bool.eq_false_iff.1 hno)).trans (if_neg (not_not.2 h))

/-- Settles O29: KEY_VALID and KEY_LEN select the end, which writes the fields that the statement lists. -/
theorem loadKeyInstallsOrRefuses : Obligations.LoadKeyInstallsOrRefuses := by
  intro s
  refine ⟨fun hno hlen => ?_, fun hno hlen => ?_, fun hlocked => ?_⟩
  · rw [exec_eq_complete, complete, loadKey_of_staged hno hlen]
    rfl
  · rw [exec_eq_complete, complete, loadKey_of_bad_length hno hlen]
    rfl
  · rw [exec_eq_complete, complete, loadKey_of_locked hlocked]
    rfl

end Sys2Proof.Machine
end

section
/-! The key never leaves the block by the port (45_load_key.md rule R266, 20_memory.md rule R69): an event of the host adds
its answers, each a function of the fields other than KEY and KEY_IN, and a completion adds none. -/

namespace Sys2Proof.Machine

/-! What a step adds to the answers. -/

/-- No completion answers the host (R329). -/
theorem complete_responses (c : Decoded) (s : State) : (complete c s).responses = s.responses := by
  cases c with
  | instr i =>
    cases i with
    | parse =>
      obtain ⟨_, _, _, hs, hu⟩ := parse_frame s
      rw [complete, hs]
      exact (congrArg State.responses hu :)
    | deriveIv =>
      obtain ⟨_, _, _, hs, hu⟩ := deriveIv_frame s
      rw [complete, hs]
      exact (congrArg State.responses hu :)
    | decrypt src =>
      obtain ⟨_, _, _, hs, hu⟩ := decrypt_frame src s
      rw [complete, hs]
      exact (congrArg State.responses hu :)
    | decryptTelegram =>
      obtain ⟨_, _, _, hs, hu⟩ := decryptTelegram_frame s
      rw [complete, hs]
      exact (congrArg State.responses hu :)
    | loadKey =>
      obtain ⟨_, _, _, hs, hu⟩ := loadKey_frame s
      rw [complete, hs]
      exact (congrArg State.responses hu :)
  | badOpcode => rfl
  | reservedBits => rfl

theorem portRead_responses (a : BitVec 12) (n : Width) (s : State) : (portRead a n s).2.responses = s.responses := by
  unfold portRead
  split
  · rfl
  · exact (memRead_outside a n s).2

theorem portWrite_responses (a : BitVec 12) (n : Width) (v : Word) (s : State) :
    (portWrite a n v s).2.responses = s.responses := by
  unfold portWrite
  split
  · rfl
  · exact memWrite_responses a n v s

/-- The answers of the port to an event of the host: one to an access, none to the reset input (R66, R67, R98). -/
def portAnswers (e : HostEvent) (s : State) : List Response :=
  match e with
  | .read a n => [(portRead a n s).1]
  | .write a n v => [(portWrite a n v s).1]
  | .wait => [(portRead 0x004 .w32 s).1]
  | .assertReset => []
  | .releaseReset => []

/-- An event of the host adds its answers to those that the host has, and no others (R338). -/
theorem perform_responses (e : HostEvent) (s : State) : (perform e s).responses = s.responses ++ portAnswers e s := by
  cases e with
  | read a n => exact congrArg (· ++ _) (portRead_responses a n s)
  | write a n v => exact congrArg (· ++ _) (portWrite_responses a n v s)
  | wait => rw [perform, waitOnce_eq]; exact congrArg (· ++ _) (portRead_responses 0x004 .w32 s)
  | assertReset => exact (List.append_nil _).symm
  | releaseReset => exact (List.append_nil _).symm

/-! The answers do not depend on KEY and KEY_IN. -/

/-- The state with another KEY and another KEY_IN. -/
def withKeys (key keyIn : Block) (s : State) : State := { s with key := key, keyIn := keyIn }

/-- What of the state KEY and KEY_IN leave alone, as far as an access looks at it. -/
@[simp] theorem withKeys_fields (key keyIn : Block) (s : State) :
    (withKeys key keyIn s).busy = s.busy ∧ (withKeys key keyIn s).telMax = s.telMax ∧
    (withKeys key keyIn s).inReset = s.inReset ∧ (withKeys key keyIn s).host = s.host ∧
    (withKeys key keyIn s).freeDraws = s.freeDraws ∧ (withKeys key keyIn s).responses = s.responses :=
  ⟨rfl, rfl, rfl, rfl, rfl, rfl⟩

/-- KEY has no place in the window, and KEY_IN reads 0 (R62, R69, R266). -/
theorem locByte_withKeys (key keyIn : Block) (s : State) (l : Loc) :
    locByte (withKeys key keyIn s) l = locByte s l := by
  cases l with
  | ctl r k => cases r <;> rfl
  | iv i | keyIn i | telBuf i | ptBuf i => rfl

theorem readData_withKeys (key keyIn : Block) (s : State) (o n : Nat) :
    readData (withKeys key keyIn s) o n = readData s o n := by
  have hbyte : readAt (withKeys key keyIn s) o = readAt s o := by
    funext k
    simp only [readAt, readLoc, locByte_withKeys, withKeys_fields]
  rw [readData, readData, hbyte]

theorem portRead_answer_withKeys (key keyIn : Block) (a : BitVec 12) (n : Width) (s : State) :
    (portRead a n (withKeys key keyIn s)).1 = (portRead a n s).1 := by
  simp only [portRead, memRead, readData_withKeys, withKeys_fields]
  split_ifs
  · rfl
  · rfl
  · rfl
  · rfl

/-- The answer to a write says whether it is refused, and no more (R67, R70). -/
theorem memWrite_answer (a : BitVec 12) (n : Width) (v : Word) (s : State) :
    (memWrite a n v s).1 = ⟨writeRefused s.telMax.toNat a.toNat (widthBytes n), 0⟩ := by
  rcases memWrite_cases a n v s with ⟨hw, h⟩ | ⟨hw, _, h⟩ | ⟨hw, _, _, h⟩ | ⟨hw, _, _, h⟩
  · rw [h, hw]
  · rw [h, hw]
  · rw [h, hw]
  · rw [h, hw]

theorem portWrite_answer_withKeys (key keyIn : Block) (a : BitVec 12) (n : Width) (v : Word) (s : State) :
    (portWrite a n v (withKeys key keyIn s)).1 = (portWrite a n v s).1 := by
  simp only [portWrite, withKeys_fields]
  split
  · rfl
  · simp only [memWrite_answer, withKeys_fields]

theorem portAnswers_withKeys (key keyIn : Block) (e : HostEvent) (s : State) :
    portAnswers e (withKeys key keyIn s) = portAnswers e s := by
  cases e with
  | read a n => exact congrArg ([·]) (portRead_answer_withKeys key keyIn a n s)
  | write a n v => exact congrArg ([·]) (portWrite_answer_withKeys key keyIn a n v s)
  | wait => exact congrArg ([·]) (portRead_answer_withKeys key keyIn 0x004 .w32 s)
  | assertReset => rfl
  | releaseReset => rfl

theorem hostTurn_responses_withKeys (key keyIn : Block) (s : State) :
    (hostTurn (withKeys key keyIn s)).responses = (hostTurn s).responses := by
  simp only [hostTurn, withKeys_fields]
  split
  · rfl
  · next e rest _ =>
    rw [perform_responses, perform_responses]
    exact congrArg (s.responses ++ ·) (portAnswers_withKeys key keyIn e { tick s with host := rest })

/-- Settles O54: both states give the turn to the same agent; the host's event is answered alike
(`hostTurn_responses_withKeys`), and a completion answers nothing (`complete_responses`). -/
theorem noAnswerDependsOnTheKey : Obligations.NoAnswerDependsOnTheKey := by
  intro s t u key keyIn ht hu
  have hagent : nextAgent (withKeys key keyIn s) = nextAgent s := rfl
  rcases step_next_cases ht with ⟨ha, rfl⟩ | ⟨w, ha, _, rfl⟩
  · rcases step_next_cases hu with ⟨_, rfl⟩ | ⟨_, hb, _, _⟩
    · exact hostTurn_responses_withKeys key keyIn s
    · cases (hagent.symm.trans hb).symm.trans ha
  · rcases step_next_cases hu with ⟨hb, _⟩ | ⟨_, _, _, rfl⟩
    · cases (hagent.symm.trans hb).symm.trans ha
    · rw [complete_responses, complete_responses]

end Sys2Proof.Machine
end

section
/-! The errors of the completions (60_exceptions.md section 1): a request error is raised before anything is written (R288),
the errors are tested in the order of R289, and no step stops the machine (R280). -/

namespace Sys2Proof.Machine

/-! What each kind of end reports (R282, R283). -/

@[simp] theorem endOk_report (s : State) : (endOk s).err = 0 ∧ (endOk s).detail = 0 := ⟨rfl, rfl⟩

@[simp] theorem raiseError_report (e : ErrKind) (s : State) :
    (raiseError e s).err = e.code ∧ (raiseError e s).detail = 0 := ⟨rfl, rfl⟩

@[simp] theorem raiseRequest_report (d : Detail) (s : State) :
    (raiseRequest d s).err = 5 ∧ (raiseRequest d s).detail = d.code := ⟨rfl, rfl⟩

/-! Request errors (R288). -/

/-- The end `t` of a completion from `s`, where it reports REQUEST_ERROR, is the bare request error: nothing was written
before it. -/
abbrev RaisesBeforeWriting (s t : State) : Prop := t.err = 5 → ∃ d, t = raiseRequest d s

theorem raiseRequest_raisesBeforeWriting (d : Detail) (s : State) : RaisesBeforeWriting s (raiseRequest d s) :=
  fun _ => ⟨d, rfl⟩

/-- An end of another kind, whatever it wrote, does not report REQUEST_ERROR (R282). -/
theorem finish_raisesBeforeWriting {e : ErrKind} (he : e ≠ .requestError) (d : Detail) (s u : State) :
    RaisesBeforeWriting s (finish e d u) := by
  intro herr
  cases e with
  | requestError => exact absurd rfl he
  | _ => cases herr

theorem parse_raisesBeforeWriting (s : State) : RaisesBeforeWriting s (parse s) := by
  rcases parse_cases s with ⟨_, hs⟩ | ⟨_, _, hs⟩ | ⟨_, _, hs⟩
  · exact hs ▸ raiseRequest_raisesBeforeWriting _ s
  · exact hs ▸ finish_raisesBeforeWriting (by decide) _ s _
  · exact hs ▸ finish_raisesBeforeWriting (by decide) _ s _

theorem deriveIv_raisesBeforeWriting (s : State) : RaisesBeforeWriting s (deriveIv s) := by
  rcases deriveIv_cases s with ⟨_, hs⟩ | ⟨_, hs⟩
  · exact hs ▸ raiseRequest_raisesBeforeWriting _ s
  · exact hs ▸ finish_raisesBeforeWriting (by decide) _ s _

theorem decryptSlice_raisesBeforeWriting (src : IvSrc) (s : State) : RaisesBeforeWriting s (decryptSlice src s) := by
  rcases decryptSlice_cases src s with ⟨_, _, hs⟩ | ⟨_, _, _, hs⟩
  · exact hs ▸ finish_raisesBeforeWriting (by decide) _ s _
  · exact hs ▸ finish_raisesBeforeWriting (by decide) _ s _

theorem decrypt_raisesBeforeWriting (src : IvSrc) (s : State) : RaisesBeforeWriting s (decrypt src s) := by
  rcases decrypt_cases src s with ⟨_, hs⟩ | ⟨_, _, hs⟩ | ⟨_, _, _, hs⟩
  · exact hs ▸ raiseRequest_raisesBeforeWriting _ s
  · exact hs ▸ raiseRequest_raisesBeforeWriting _ s
  · exact hs ▸ decryptSlice_raisesBeforeWriting src s

theorem decryptTelegram_raisesBeforeWriting (s : State) : RaisesBeforeWriting s (decryptTelegram s) := by
  rcases decryptTelegram_cases s with ⟨_, hs⟩ | ⟨_, _, hs⟩ | ⟨_, _, _, hs⟩ | ⟨_, _, _, hs⟩
  · exact hs ▸ raiseRequest_raisesBeforeWriting _ s
  · exact hs ▸ raiseRequest_raisesBeforeWriting _ s
  · exact hs ▸ finish_raisesBeforeWriting (by decide) _ s _
  · exact hs ▸ finish_raisesBeforeWriting (by decide) _ s _

theorem loadKey_raisesBeforeWriting (s : State) : RaisesBeforeWriting s (loadKey s) := by
  rcases loadKey_cases s with ⟨_, hs⟩ | ⟨_, _, hs⟩ | ⟨_, _, hs⟩
  · exact hs ▸ raiseRequest_raisesBeforeWriting _ s
  · exact hs ▸ finish_raisesBeforeWriting (by decide) _ s _
  · exact hs ▸ finish_raisesBeforeWriting (by decide) _ s _

theorem complete_raisesBeforeWriting (c : Decoded) (s : State) : RaisesBeforeWriting s (complete c s) := by
  cases c with
  | instr i =>
    cases i with
    | parse => exact parse_raisesBeforeWriting s
    | deriveIv => exact deriveIv_raisesBeforeWriting s
    | decrypt src => exact decrypt_raisesBeforeWriting src s
    | decryptTelegram => exact decryptTelegram_raisesBeforeWriting s
    | loadKey => exact loadKey_raisesBeforeWriting s
  | badOpcode => exact raiseRequest_raisesBeforeWriting _ s
  | reservedBits => exact raiseRequest_raisesBeforeWriting _ s

/-- A completion that reports REQUEST_ERROR writes ERR and DETAIL and ends the command, and writes nothing else (R288). -/
theorem complete_of_requestError {c : Decoded} {s : State} (h : (complete c s).err = 5) :
    complete c s = { s with err := 5, detail := (complete c s).detail, busy := false, pending := none } := by
  obtain ⟨d, hd⟩ := complete_raisesBeforeWriting c s h
  rw [hd]
  rfl

/-- Settles O8: a command's meaning and a pending word's step are both a completion, which `complete_of_requestError`
covers. -/
theorem requestErrorsChangeNothingElse : Obligations.RequestErrorsChangeNothingElse := by
  refine ⟨fun i s t ht herr => ?_, fun s t w hc ht herr => ?_⟩
  · obtain rfl := Host.Outcome.next.inj ((exec_eq_complete i s).symm.trans ht)
    exact complete_of_requestError herr
  · obtain rfl := Host.Outcome.next.inj ((step_of_completes hc).symm.trans ht)
    exact complete_of_requestError herr

/-! The order of the errors (R289). -/

/-- Entries 3 to 6 of R289 for a legal word with this OP: ERR and DETAIL of `t` are those of the first test that the
completion from `s` fails. -/
abbrev ReportsFirstError (op : Nat) (s t : State) : Prop :=
  if (op = 3 ∨ op = 4) ∧ s.keyValid = false then t.err = 5 ∧ t.detail = 3
  else if op = 5 ∧ s.keyValid = true then t.err = 5 ∧ t.detail = 4
  else if op = 2 ∧ s.parsed = false then t.err = 5 ∧ t.detail = 5
  else if (op = 1 ∨ op = 3 ∨ op = 4) ∧ s.telMax.toNat < s.telLen.toNat then t.err = 5 ∧ t.detail = 6
  else if op = 3 ∧ s.telLen.toNat < s.ctOff.toNat + s.ctLen.toNat then t.err = 5 ∧ t.detail = 6
  else if (op = 1 ∨ op = 4) ∧ s.telLen.toNat < 10 then t.err = 1 ∧ t.detail = 0
  else if op = 5 ∧ s.keyLen ≠ 16 then t.err = 3 ∧ t.detail = 0
  else t.detail = 0 ∧ (t.err = 0 ∨ (op = 3 ∧ t.err = 4))

theorem parse_reportsFirstError (s : State) : ReportsFirstError 1 s (parse s) := by
  rcases parse_cases s with ⟨hlong, hs⟩ | ⟨hmax, hshort, hs⟩ | ⟨hmax, hmin, hs⟩
  · simp [ReportsFirstError, hs, hlong, Detail.code]
  · simp [ReportsFirstError, hs, hmax, hshort, ErrKind.code]
  · simp [ReportsFirstError, hs, hmax, hmin]

theorem deriveIv_reportsFirstError (s : State) : ReportsFirstError 2 s (deriveIv s) := by
  rcases deriveIv_cases s with ⟨hno, hs⟩ | ⟨hparsed, hs⟩
  · simp [ReportsFirstError, hs, hno, Detail.code]
  · simp [ReportsFirstError, hs, hparsed]

/-- Past its request checks DECRYPT reports NONE or DECRYPTION_FAILED (R170). -/
theorem decryptSlice_report (src : IvSrc) (s : State) :
    (decryptSlice src s).detail = 0 ∧ ((decryptSlice src s).err = 0 ∨ (decryptSlice src s).err = 4) := by
  rcases decryptSlice_cases src s with ⟨_, _, hs⟩ | ⟨_, _, _, hs⟩
  · simp [hs]
  · simp [hs, ErrKind.code]

theorem decrypt_reportsFirstError (src : IvSrc) (s : State) : ReportsFirstError 3 s (decrypt src s) := by
  rcases decrypt_cases src s with ⟨hno, hs⟩ | ⟨hkey, hlong | hslice, hs⟩ | ⟨hkey, hmax, hslice, hs⟩
  · simp [ReportsFirstError, hs, hno, Detail.code]
  · simp [ReportsFirstError, hs, hkey, hlong, Detail.code]
  · simp [ReportsFirstError, hs, hkey, hslice, Detail.code]
  · simpa [ReportsFirstError, hs, hkey, hmax.not_gt, hslice.not_gt] using decryptSlice_report src s

theorem decryptTelegram_reportsFirstError (s : State) : ReportsFirstError 4 s (decryptTelegram s) := by
  rcases decryptTelegram_cases s with
    ⟨hno, hs⟩ | ⟨hkey, hlong, hs⟩ | ⟨hkey, hmax, hshort, hs⟩ | ⟨hkey, hmax, hmin, hs⟩
  · simp [ReportsFirstError, hs, hno, Detail.code]
  · simp [ReportsFirstError, hs, hkey, hlong, Detail.code]
  · simp [ReportsFirstError, hs, hkey, hmax, hshort, ErrKind.code]
  · simp [ReportsFirstError, hs, hkey, hmax, hmin]

theorem loadKey_reportsFirstError (s : State) : ReportsFirstError 5 s (loadKey s) := by
  rcases loadKey_cases s with ⟨hlocked, hs⟩ | ⟨hno, hlen, hs⟩ | ⟨hno, hlen, hs⟩
  · simp [ReportsFirstError, hs, hlocked, Detail.code]
  · simpa [ReportsFirstError, hs, hno, ErrKind.code] using hlen
  · simp [ReportsFirstError, hs, hno, hlen]

theorem complete_reportsFirstError (i : Instr) (s : State) :
    ReportsFirstError ((encode i).toNat % 16) s (complete (.instr i) s) := by
  cases i with
  | parse => exact parse_reportsFirstError s
  | deriveIv => exact deriveIv_reportsFirstError s
  | decrypt src => cases src <;> exact decrypt_reportsFirstError _ s
  | decryptTelegram => exact decryptTelegram_reportsFirstError s
  | loadKey => exact loadKey_reportsFirstError s

/-- Settles O9: decoding rejects a word by the first two tests; a word that passes both is the encoding of a command, whose
completion makes the others (`complete_reportsFirstError`). -/
theorem errorsAreReportedInPriorityOrder : Obligations.ErrorsAreReportedInPriorityOrder := by
  intro s w hc
  refine ⟨_, step_of_completes hc, ?_⟩
  intro op long
  split
  · next hop =>
    rw [decode_eq_badOpcode_iff.2 hop]
    exact raiseRequest_report .badOpcode s
  · next hop =>
    have hlo : 1 ≤ w.toNat % 16 := by omega
    have hhi : w.toNat % 16 ≤ 5 := by omega
    split
    · next hreserved =>
      rw [decode_eq_reservedBits hlo hhi hreserved]
      exact raiseRequest_report .reservedBits s
    · next hreserved =>
      obtain ⟨i, rfl⟩ := eq_encode_of_legal hlo hhi hreserved
      rw [decode_encode]
      exact complete_reportsFirstError i s

/-! No step stops (R280, R329). -/

/-- Settles O50: the one fault is for BUSY = 1 with no command pending, which the hypothesis excludes. -/
theorem noStepStops : Obligations.NoStepStops := by
  intro s hcoherent
  rcases step_cases s with ⟨_, hs⟩ | ⟨ha, hp, _⟩ | ⟨_, i, _, _, _, hs⟩ | ⟨_, _, _, _, hs⟩ | ⟨_, _, _, _, hs⟩
  · exact ⟨_, hs⟩
  · obtain ⟨hbusy, _, _⟩ := (nextAgent_engine_iff s).1 ha
    simp [hbusy, hp] at hcoherent
  · exact ⟨_, hs.trans (exec_eq_complete i s)⟩
  · exact ⟨_, hs⟩
  · exact ⟨_, hs⟩

end Sys2Proof.Machine
end

section
/-! Issue and completion (70_reset_and_hazards.md section 3): a write of CMD puts a word in flight whatever it is, and its
completion, that of the command it decodes to, ends with nothing in flight and touches only what commands write. -/

namespace Sys2Proof.Machine

/-! The completion (R329). -/

/-- Settles O5: the step is the completion of what the word decodes to, and of a command that is `exec`. -/
theorem stepRunsTheDecodedCommand : Obligations.StepRunsTheDecodedCommand := by
  intro s w i hc hd
  rw [step_of_completes hc, hd, exec_eq_complete]

/-- The second state comes from the first by a completion: nothing is in flight, and only registers that a command
writes may differ (R20, the column "written by"). -/
abbrev CompletedFrom (s t : State) : Prop :=
  t = { s with
    busy := false, pending := none, err := t.err, detail := t.detail
    lField := t.lField, cField := t.cField, mField := t.mField, ciField := t.ciField, ctOff := t.ctOff
    ctLen := t.ctLen, parsed := t.parsed, iv := t.iv, key := t.key, keyValid := t.keyValid, keyIn := t.keyIn
    ptBuf := t.ptBuf, ptDraw := t.ptDraw, ptLen := t.ptLen, ptValid := t.ptValid, outcome := t.outcome
    causeA := t.causeA, causeB := t.causeB, faultDraws := t.faultDraws, freeDraws := t.freeDraws }

/-- Every completion has the frame of what commands write: the union of the frames of the five commands. -/
theorem complete_completedFrom (c : Decoded) (s : State) : CompletedFrom s (complete c s) := by
  cases c with
  | instr i =>
    have hframe := commandsWriteOnlyTheirOperands i s _ (exec_eq_complete i s)
    generalize complete (.instr i) s = t at hframe
    cases i with
    | parse => obtain ⟨_, _, ht⟩ := hframe; rw [ht]
    | deriveIv => obtain ⟨_, _, ht⟩ := hframe; rw [ht]
    | decrypt src => obtain ⟨_, ht⟩ := hframe; rw [ht]
    | decryptTelegram => obtain ⟨_, ht⟩ := hframe; rw [ht]
    | loadKey => obtain ⟨_, _, ht⟩ := hframe; rw [ht]
  | badOpcode => rfl
  | reservedBits => rfl

/-- Settles O6: the step is a completion (`step_of_completes`), whose frame is `CompletedFrom`. -/
theorem completionEndsTheCommand : Obligations.CompletionEndsTheCommand := by
  intro s w hc
  refine ⟨_, step_of_completes hc, ?_⟩
  rw [complete_completedFrom]
  exact ⟨rfl, rfl, rfl, rfl, rfl, rfl, rfl, rfl, rfl, rfl, rfl, rfl, rfl⟩

/-! The issue (R328). -/

/-- A 4-byte write of CMD while BUSY = 0 issues the word (R64, R328). -/
theorem memWrite_cmd {s : State} (hb : s.busy = false) (v : Word) :
    memWrite 0x000 .w32 v s = (⟨false, 0⟩, issue v s) := by
  have hlegal := legal_ctl (k := 0) rfl s.telMax.toNat
  have hcmd := locate_ctl_zero (k := 0) rfl s.telMax.toNat
  have hw : writeRefused s.telMax.toNat 0 4 = false := by
    rw [writeRefused, hlegal, notWritable, hcmd]
    rfl
  rcases memWrite_cases 0x000 .w32 v s with ⟨hw', _⟩ | ⟨_, hb', _⟩ | ⟨_, _, _, h⟩ | ⟨_, _, hne, _⟩
  · cases hw.symm.trans hw'
  · cases hb.symm.trans hb'
  · exact h
  · exact absurd rfl hne

/-- A write event of CMD out of reset while BUSY = 0: the issue and the record of its answer (R328, R338). -/
theorem perform_write_cmd {s : State} (hr : s.inReset = false) (hb : s.busy = false) (v : Word) :
    perform (.write 0x000 .w32 v) s = { issue v s with responses := s.responses ++ [⟨false, 0⟩] } := by
  rw [perform_write hr, memWrite_cmd hb]

/-- Settles O40: with BUSY = 0 it is the host's turn, and its event is the issue (`perform_write_cmd`). -/
theorem cmdWriteIssuesTheCommand : Obligations.CmdWriteIssuesTheCommand := by
  intro v rest s hb hr hs
  have ha : nextAgent s = .host := if_neg fun h => Bool.eq_false_iff.1 hb h.1
  have hperform := perform_write_cmd (s := { tick s with host := rest }) hr hb v
  exact ⟨_, (step_host ha hs).trans (congrArg _ hperform), rfl⟩

end Sys2Proof.Machine
end

section
/-! The port while BUSY = 1 (70_reset_and_hazards.md section 4): a legal write is dropped (R331), and the bits of R332's list
read exactly. -/

namespace Sys2Proof.Machine

/-- Settles O41: of the cases of a write, the one that is not refused and finds BUSY = 1. -/
theorem writeWhileBusyIsDropped : Obligations.WriteWhileBusyIsDropped := by
  intro a n v s hb hw
  rcases memWrite_cases a n v s with ⟨hw', _⟩ | ⟨_, _, h⟩ | ⟨_, hb', _⟩ | ⟨_, hb', _⟩
  · cases hw.symm.trans hw'
  · exact h
  · cases hb.symm.trans hb'
  · cases hb.symm.trans hb'

/-! The mix of exact and free bits of R332. -/

/-- A bit of the mix that is exact is the value's. -/
theorem getLsbD_mix {v free exact : Word} {i : Nat} (h : exact.getLsbD i = true) :
    (v &&& exact ||| free &&& ~~~exact).getLsbD i = v.getLsbD i := by
  simp [h]

/-- A field of the mix whose bits are all exact is the value's. -/
theorem extractLsb'_mix {v free exact : Word} {lo n : Nat}
    (h : exact.extractLsb' lo n = BitVec.allOnes n) :
    (v &&& exact ||| free &&& ~~~exact).extractLsb' lo n = v.extractLsb' lo n := by
  apply BitVec.eq_of_getLsbD_eq
  intro i hi
  have hbit : exact.getLsbD (lo + i) = true := by
    simpa [hi] using congrArg (·.getLsbD i) h
  simp [hi, hbit]

/-- The register's every bit is exact, so the mix is its word. -/
theorem memRead_ctl_exact {k : Nat} {r : CtlReg} {a : BitVec 12} {s : State} (ha : a.toNat = 4 * k)
    (hr : ctlRegAt k = some r) (he : r.exactBits = BitVec.allOnes 32) (hb : s.busy = true) :
    (memRead a .w32 s).1 = ⟨false, ctlWord s r⟩ := by
  rw [memRead_ctl_busy ha hr hb, he, BitVec.and_allOnes, BitVec.not_allOnes, BitVec.and_zero, BitVec.or_zero]

/-- A byte whose bits all read exactly is the one at the location, BUSY or not. -/
theorem readLoc_exact {s : State} {l : Loc} (he : l.exactBits = BitVec.allOnes 8) (free : Byte) :
    readLoc s free l = locByte s l := by
  unfold readLoc
  split
  · rw [he, BitVec.and_allOnes, BitVec.not_allOnes, BitVec.and_zero, BitVec.or_zero]
  · rfl

/-- What a read of STATUS shows while BUSY = 1 (R332). -/
theorem memRead_status_busy {s : State} (hb : s.busy = true) :
    ∃ d, (memRead 0x004 .w32 s).1 = ⟨false, d⟩ ∧ d.getLsbD 0 = true ∧ d.getLsbD 4 = s.haz ∧ d.getLsbD 5 = s.busErr ∧
      d.extractLsb' 6 2 = 0 ∧ d.getLsbD 19 = false ∧ d.getLsbD 23 = false ∧ d.extractLsb' 26 6 = 0 := by
  obtain ⟨hbusy, _, _, _, hhaz, herr, h19, h23⟩ := statusWord_bits s
  obtain ⟨h6, _, _, _, _, _, h26⟩ := statusWord_fields s
  refine ⟨_, congrArg Prod.fst (memRead_ctl_busy (k := 1) rfl rfl hb), ?_, ?_, ?_, ?_, ?_, ?_, ?_⟩
  · exact (getLsbD_mix (by decide)).trans (hbusy.trans hb)
  · exact (getLsbD_mix (by decide)).trans hhaz
  · exact (getLsbD_mix (by decide)).trans herr
  · exact (extractLsb'_mix (by decide)).trans h6
  · exact (getLsbD_mix (by decide)).trans h19
  · exact (getLsbD_mix (by decide)).trans h23
  · exact (extractLsb'_mix (by decide)).trans h26

/-- A naturally aligned read inside a byte region whose bytes read exactly answers their value, BUSY or not (R63, R332). -/
theorem memRead_exact_region {n : Width} {base i : Nat} {r : Region} {s : State} {b : Nat → Byte} (hr : r ≠ .control)
    (hbase : base % 4 = 0) (hlt : base + i < 2 ^ 12) (halign : i % widthBytes n = 0)
    (h : ∀ k < widthBytes n, ∃ l, locate s.telMax.toNat (base + i + k) = some l ∧ l.region = r ∧
      l.exactBits = BitVec.allOnes 8 ∧ locByte s l = b k) :
    (memRead (BitVec.ofNat 12 (base + i)) n s).1 = ⟨false, leValue n b⟩ := by
  have ha : (BitVec.ofNat 12 (base + i)).toNat = base + i := by rw [BitVec.toNat_ofNat, Nat.mod_eq_of_lt hlt]
  have hlegal : legal s.telMax.toNat (base + i) (widthBytes n) = true :=
    legal_of_region hr (widthBytes_pos n) (aligned_offset hbase halign) fun k hk => by
      obtain ⟨l, hl, hlr, _⟩ := h k hk
      rw [hl, Option.map_some, hlr]
  have hbyte (k : Nat) (hk : k < widthBytes n) : readAt s (base + i) k = b k := by
    obtain ⟨l, hl, _, he, hlb⟩ := h k hk
    rw [readAt, hl]
    exact (readLoc_exact he _).trans hlb
  rw [memRead_legal (ha.symm ▸ hlegal), ha, readData, leBytes_eq_leValue, leValue_congr hbyte]

theorem leValue_zero (n : Width) : leValue n (fun _ => 0) = 0 := by cases n <;> rfl

/-- Settles O42: STATUS has its exact bits, and every other location of R332's list has no other. -/
theorem exactReadsWhileBusy : Obligations.ExactReadsWhileBusy := by
  intro s hb hmax
  refine ⟨memRead_status_busy hb, memRead_ctl_exact (k := 0) rfl rfl rfl hb, memRead_ctl_exact (k := 2) rfl rfl rfl hb,
    memRead_ctl_exact (k := 3) rfl rfl rfl hb, memRead_ctl_exact (k := 13) rfl rfl rfl hb, fun n i halign hi => ?_,
    fun n i halign hi => ?_⟩
  · rw [← leValue_zero n]
    refine memRead_exact_region (r := .keyIn) (by decide) (by decide) (by omega) halign
      fun k hk => ⟨.keyIn (Fin.ofNat 16 (i + k)), ?_, rfl, rfl, rfl⟩
    rw [Nat.add_assoc, locate_keyIn (by omega)]
  · refine memRead_exact_region (r := .telBuf) (by decide) (by decide) (by have := widthBytes_pos n; omega) halign
      fun k hk => ⟨.telBuf (i + k), ?_, rfl, rfl, rfl⟩
    rw [Nat.add_assoc, locate_telBuf (by omega)]

end Sys2Proof.Machine
end

section
/-! Reset (70_reset_and_hazards.md section 1): the reset state, the assertion and the release as steps of the host, and the
accesses in between. -/

namespace Sys2Proof.Machine

/-! The reset state (R20, R320). -/

/-- Every element has its reset value, whatever TEL_MAX is. -/
theorem resetWith_elementsAtReset (telMax : BitVec 16) : (State.resetWith telMax).ElementsAtReset telMax :=
  ⟨⟨rfl, rfl, rfl, rfl, rfl, rfl, rfl⟩, ⟨rfl, rfl, rfl, rfl, rfl⟩, ⟨rfl, rfl, rfl, rfl, rfl, rfl⟩,
    ⟨rfl, rfl, rfl, rfl⟩, ⟨rfl, rfl, rfl, rfl, rfl⟩⟩

/-- Settles O43: `State.reset` is `State.resetWith` for TEL_MAX = 256. -/
theorem resetStateHasTheResetValues : Obligations.ResetStateHasTheResetValues :=
  ⟨resetWith_elementsAtReset 256, resetWith_elementsAtReset⟩

/-- Of the reset state the invariant asks only that TEL_MAX is legal: every register is 0 and both buffers are empty. -/
theorem resetWith_inv {telMax : BitVec 16} (hmax : (State.resetWith telMax).TelMaxLegal) :
    (State.resetWith telMax).Inv := by
  obtain ⟨_, ho, hp⟩ := coherent_of_no_decryption (s := State.resetWith telMax) rfl rfl rfl rfl rfl
  have hcodes : (State.resetWith telMax).CodesLegal := by simp [State.CodesLegal, State.resetWith]
  exact ⟨⟨rfl, fun _ => rfl⟩, hcodes, ho, hp, fun _ => ⟨rfl, rfl, rfl, rfl⟩, fun _ => rfl, hmax,
    Memory.nil_wf, Memory.nil_within _, Memory.nil_wf, Memory.nil_within _⟩

/-- Settles O48: by `resetWith_inv`; 256 is a legal TEL_MAX. -/
theorem resetMeetsTheInvariant : Obligations.ResetMeetsTheInvariant :=
  ⟨resetWith_inv ⟨by decide, by decide⟩, fun _ hleast hgreatest => resetWith_inv ⟨hleast, hgreatest⟩⟩

/-! The assertion and the release (R321, R324). -/

/-- Settles O44: the step is `assertReset`, which takes nothing of the state before it but TEL_MAX and what is outside the
block. -/
theorem resetClearsEverything : Obligations.ResetClearsEverything := by
  intro s rest ha hs
  exact ⟨_, step_host ha hs, resetWith_elementsAtReset s.telMax, rfl, rfl, rfl⟩

/-- Settles O46: the step is `releaseReset`. -/
theorem releaseOpensThePort : Obligations.ReleaseOpensThePort := fun _ _ ha hs => step_host ha hs

/-! The accesses in reset (R320). -/

/-- In reset the engine does not run, so every step is the host's (R329). -/
theorem nextAgent_of_inReset {s : State} (hr : s.inReset = true) : nextAgent s = .host :=
  if_neg fun h => h.2.1 hr

theorem portRead_of_inReset {s : State} (hr : s.inReset = true) (a : BitVec 12) (n : Width) :
    portRead a n s = accessInReset n s := if_pos hr

theorem portWrite_of_inReset {s : State} (hr : s.inReset = true) (a : BitVec 12) (n : Width) (v : Word) :
    portWrite a n v s = accessInReset n s := if_pos hr

/-- A read in reset records an answer, which uses up a draw. -/
theorem perform_read_inReset {s : State} (hr : s.inReset = true) (a : BitVec 12) (n : Width) :
    ∃ r, perform (.read a n) s = { useDraw s with responses := s.responses ++ [r] } := by
  rw [perform, portRead_of_inReset hr]
  exact ⟨_, rfl⟩

/-- A write in reset records an answer, which uses up a draw, and stores nothing. -/
theorem perform_write_inReset {s : State} (hr : s.inReset = true) (a : BitVec 12) (n : Width) (v : Word) :
    ∃ r, perform (.write a n v) s = { useDraw s with responses := s.responses ++ [r] } := by
  rw [perform, portWrite_of_inReset hr]
  exact ⟨_, rfl⟩

/-- A wait in reset does the same, and is repeated where bit 0 of its answer is set (R98). -/
theorem perform_wait_inReset {s : State} (hr : s.inReset = true) :
    ∃ r : Response, perform .wait s = { useDraw s with
      host := if r.data.getLsbD 0 then .wait :: s.host else s.host, responses := s.responses ++ [r] } := by
  rw [perform, waitOnce_eq, portRead_of_inReset hr]
  exact ⟨_, rfl⟩

/-- Settles O45: the step is the host's (`nextAgent_of_inReset`), and its access does no more than record an answer. -/
theorem accessesInResetHaveNoEffect : Obligations.AccessesInResetHaveNoEffect := by
  intro s rest hr
  have ha := nextAgent_of_inReset hr
  refine ⟨?_, fun hs => ?_⟩
  · rintro (⟨a, n, hs⟩ | ⟨a, n, v, hs⟩)
    · obtain ⟨r, hread⟩ := perform_read_inReset (s := { tick s with host := rest }) hr a n
      exact ⟨r, (step_host ha hs).trans (congrArg _ hread)⟩
    · obtain ⟨r, hwrite⟩ := perform_write_inReset (s := { tick s with host := rest }) hr a n v
      exact ⟨r, (step_host ha hs).trans (congrArg _ hwrite)⟩
  · obtain ⟨r, hwait⟩ := perform_wait_inReset (s := { tick s with host := rest }) hr
    exact ⟨r, (step_host ha hs).trans (congrArg _ hwait)⟩

end Sys2Proof.Machine
end
